-- ==== Sys2Proof/Word.lean ====
section
/-! DEFINITION. The words the part exchanges: plain names for the bit vectors of the manual. -/

namespace Sys2Proof

/-- A 32-bit register word, tag, mask or element value. -/
abbrev Word := BitVec 32

/-- A 16-bit free-running ring index; its `+` and `-` are the manual's index arithmetic (R22, R23). -/
abbrev Index := BitVec 16

/-- A 40-bit physical address; its `+` wraps modulo 2 to the power of 40 (R21). -/
abbrev Phys := BitVec 40

/-- The 64 bytes of a submission record: byte `b` is bits `8 b` to `8 b + 7` (section 11.1). -/
abbrev Record := BitVec 512

end Sys2Proof
end

