-- ==== Sys2Proof/Syntax.lean ====
section
/-! DEFINITION. The commands of the part: one constructor of `Instr` for each row of spec/opcode_table.json, with
its operands. A row's operands are what the step takes from outside the part, or what names the context, element or
line it concerns. -/

namespace Sys2Proof

/-- A tenant, named by its place: `i` is the tenant whose context number is `i + 1` (contexts 1 to 7). -/
abbrev TenantId := Fin 7

/-- A sync line, 0 to 3. -/
abbrev Line := Fin 4

/-- One of the eight contexts. -/
inductive Ctx where
  /-- context 0 -/
  | control
  /-- contexts 1 to 7 -/
  | tenant (k : TenantId)
  deriving DecidableEq, Repr

/-- Which outstanding element transaction the M-port answers. -/
inductive ElemRef where
  /-- the transaction of the element at this record ordinal -/
  | element (ord : Nat)
  /-- the fill read of a GET under HOLD (R55) -/
  | fill
  deriving DecidableEq, Repr

/-- The half of the control-ring base word that a write names (R182). -/
inductive Half where
  | low
  | high
  deriving DecidableEq, Repr

/-- The commands. The docstring of a constructor gives the row and its operands. -/
inductive Instr where
  /-- PRODUCER_INDEX_WRITE: context, written word (R23, R25) -/
  | producerIndexWrite (c : Ctx) (w : Word)
  /-- CONSUMER_INDEX_WRITE: context, written word (R150) -/
  | consumerIndexWrite (c : Ctx) (w : Word)
  /-- ALERT_WORD_WRITE: written word (R152) -/
  | alertWordWrite (w : Word)
  /-- ENABLE: engine word write with SOFT_RESET 0 and ENABLE 1; written word (R159 to R161) -/
  | enable (w : Word)
  /-- SOFT_RESET: engine word write with SOFT_RESET 1; written word (R162) -/
  | softReset (w : Word)
  /-- SIZE_CODE_STORE: engine word write with neither field; written word (R159) -/
  | sizeCodeStore (w : Word)
  /-- CONTROL_RING_BASE_WRITE: half, written word (R182) -/
  | controlRingBaseWrite (h : Half) (w : Word)
  /-- REGISTER_WRITE_OTHER: offset, written word (R181) -/
  | registerWriteOther (offset : BitVec 8) (w : Word)
  /-- T_PORT_BAD_ACCESS: write or read, offset, size in bytes (R181) -/
  | tPortBadAccess (write : Bool) (offset : BitVec 8) (size : Nat)
  /-- RST_N_ASSERT (R18) -/
  | rstNAssert
  /-- RST_N_RELEASE (R133) -/
  | rstNRelease
  /-- SOFT_RESET_END (R19, R162) -/
  | softResetEnd
  /-- SYNC_EDGE: line (R134) -/
  | syncEdge (l : Line)
  /-- ARRIVAL: line (R137) -/
  | arrival (l : Line)
  /-- WAIT_TIMEOUT: tenant (R138) -/
  | waitTimeout (k : TenantId)
  /-- HOLDOFF_EXPIRY: tenant (R154) -/
  | holdoffExpiry (k : TenantId)
  /-- FETCH_READ_ISSUE: tenant (R27) -/
  | fetchReadIssue (k : TenantId)
  /-- CONTROL_READ_ISSUE (R35) -/
  | controlReadIssue
  /-- FETCH_READ_ACK: tenant, the 64 bytes read (R28) -/
  | fetchReadAck (k : TenantId) (data : Record)
  /-- FETCH_READ_ERROR: tenant (R29) -/
  | fetchReadError (k : TenantId)
  /-- CONTROL_FETCH_ACK: the 64 bytes read (R35) -/
  | controlFetchAck (data : Record)
  /-- CONTROL_FETCH_ERROR (R36) -/
  | controlFetchError
  /-- REFETCH_ACK: tenant, the 64 bytes read (R32) -/
  | refetchAck (k : TenantId) (data : Record)
  /-- REFETCH_ERROR: tenant (R32) -/
  | refetchError (k : TenantId)
  /-- DISCARDED_READ_ANSWER: tenant, whether the answer is OK (R34) -/
  | discardedReadAnswer (k : TenantId) (ok : Bool)
  /-- GRANT (R81) -/
  | grant
  /-- SURFACE (R40) -/
  | surface
  /-- WINDOW (R44) -/
  | window
  /-- PUT (R67) -/
  | put
  /-- GET (R70) -/
  | get
  /-- COPY (R73) -/
  | copy
  /-- FILL (R76) -/
  | fill
  /-- MARK (R78) -/
  | mark
  /-- PROBE (R79) -/
  | probe
  /-- WAIT: tenant (R136) -/
  | wait (k : TenantId)
  /-- TAKE_UP (R86) -/
  | takeUp
  /-- HELD_TRANSACTION_ISSUE: the element or fill read whose held transaction is issued (R184) -/
  | heldTransactionIssue (r : ElemRef)
  /-- ELEMENT_READ_ACK: element or fill read, value read (R87) -/
  | elementReadAck (r : ElemRef) (value : Word)
  /-- ELEMENT_WRITE_ACK: record ordinal (R88) -/
  | elementWriteAck (ord : Nat)
  /-- ELEMENT_ERROR_RESPONSE: element or fill read (R91) -/
  | elementErrorResponse (r : ElemRef)
  /-- DRAIN_FINISH (R89) -/
  | drainFinish
  /-- DRAIN_PREEMPT (R95) -/
  | drainPreempt
  /-- DRAIN_HALT (R93) -/
  | drainHalt
  /-- ABORT_DONE (R97) -/
  | abortDone
  /-- MAP_PENDING_APPLY: tenant (R110) -/
  | mapPendingApply (k : TenantId)
  /-- POST_ISSUE: context (R144) -/
  | postIssue (c : Ctx)
  /-- POST_ACK: context (R145) -/
  | postAck (c : Ctx)
  /-- RECOVERY_AFTER_POST: tenant (R123) -/
  | recoveryAfterPost (k : TenantId)
  /-- POST_ERROR: context (R148) -/
  | postError (c : Ctx)
  /-- DISCARDED_POST_ANSWER: tenant, whether the answer is OK (R149) -/
  | discardedPostAnswer (k : TenantId) (ok : Bool)
  /-- ATTACH (R167) -/
  | attach
  /-- DETACH (R168) -/
  | detach
  /-- DRAIN (R171) -/
  | drain
  /-- DRAIN_END (R172) -/
  | drainEnd
  /-- RESUME_RETRY (R124) -/
  | resumeRetry
  /-- RESUME_SKIP (R128) -/
  | resumeSkip
  /-- MAP_LOAD (R108) -/
  | mapLoad
  /-- MAP_CLEAR (R108) -/
  | mapClear
  /-- SET_SERVICE (R173) -/
  | setService
  /-- QUERY (R174) -/
  | query
  /-- QUERY_REPORT_ACK (R175) -/
  | queryReportAck
  /-- QUERY_REPORT_ERROR (R175) -/
  | queryReportError
  /-- NOTE (R176) -/
  | note
  /-- TIMEBASE_STEP (R133) -/
  | timebaseStep
  deriving DecidableEq, Repr

end Sys2Proof
end

