-- ==== Sys2Proof/Config.lean ====
section
/-! DEFINITION. The constants of the part (00_scope.md, Sizes and ranges; section 11.5), and the one choice the spec
leaves open after which the part goes on. -/

namespace Sys2Proof.Config

/-- Page size in bytes (00_scope.md). -/
abbrev pageBytes : Nat := 16384

/-- Map entries per tenant (R99). -/
abbrev pages : Nat := 512

/-- Size of a tenant's logical space, 8 MiB (00_scope.md). -/
abbrev logicalBytes : Nat := 8388608

/-- Prefetch queue depth of a tenant (R27). -/
abbrev queueDepth : Nat := 4

/-- Places of the outstanding set (R86). -/
abbrev places : Nat := 8

/-- Elements of a slice for each unit of weight (R82). -/
abbrev sliceUnit : Nat := 256

/-- Largest reported wraps count; the count saturates there (R50). -/
abbrev wrapsMax : Nat := 65535

/-- The identification word (R181). -/
def identification : Word := 0x5E080100

/-- Free value (R139, log 4): whether, at the timebase step that draws this number, the expiry of this tenant's wait timer is
taken before an arrival on the line it counts. Nothing constrains it. -/
opaque expiryFirst : Nat → TenantId → Bool

/-- Free value (R81, log 28): whether this grant request of the arbiter is still on its way to the context table after the
step that sends it. Nothing constrains it. -/
opaque grantDelayed : Nat → Bool

/-- The value of cursor after that stands for "no window" (R179). -/
def noCursor : Word := 0xFFFFFFFF

end Sys2Proof.Config
end

