-- ==== Sys2Proof/Machine/State.lean ====
section
/-! DEFINITION. The state of the part, as plain data: every field the spec gives a block, under the block's own words,
the queue of waiting commands, and the state right after power-on reset (R18). -/

namespace Sys2Proof.Machine

/-! ## Names -/

/-- Engine states (R158). -/
inductive Engine where
  | off | on | ctlStopped | resetting
  deriving DecidableEq, Repr

/-- Tenant states (section 1.3). -/
inductive TState where
  | detached | idle | ready | running | waiting | posting | halted | paused | detaching
  deriving DecidableEq, Repr

/-- States of the control context, which follow the engine state (R16). -/
inductive CState where
  | off | active | stopped
  deriving DecidableEq, Repr

/-- Halt reasons (section 1.2). -/
inductive HaltReason where
  | absent | noRead | noWrite | busError | fetchError | invalid | timeout | postError
  deriving DecidableEq, Repr

/-- The recovery step of a halted tenant (section 7.3). -/
inductive Recovery where
  | retryAfterPost | skipAfterPost | refetchOutstanding
  deriving DecidableEq, Repr

/-- The cause recorded for a context in the alert word (R151). -/
inductive Alert where
  | index | post
  deriving DecidableEq, Repr

/-- Completion statuses (section 11.3.1). -/
inductive Status where
  | ok | invalid | faultAbsent | faultNoRead | faultNoWrite | busError | fetchError | timeout | skipped
  | wrongState | haltedTarget
  deriving DecidableEq, Repr

/-- Completion reasons (section 11.3.1). -/
inductive Reason where
  | none | unknownKind | badField | noSurface | notFit | align | noWindow | controlOnly | tenantOnly | badTarget
  | read | write
  deriving DecidableEq, Repr

/-- Record kinds (section 11.1.2). -/
inductive Kind where
  | surface | window | put | get | copy | fill | wait | mark | probe
  | attach | detach | drain | resume | mapLoad | mapClear | setService | query | note
  deriving DecidableEq, Repr

/-! ## Records and completions -/

/-- What a queue entry or a current record holds: the 64 bytes read, or the failed entry of a fetch read that
received an error response (R28, R29). -/
inductive Body where
  | record (data : Record)
  | failed
  deriving DecidableEq, Repr

/-- A prefetch queue entry, or a tenant's current record, with its sequence number (R4). -/
structure Entry where
  seq : Index
  body : Body
  deriving DecidableEq, Repr

/-- A completion as its builder hands it over; the lap bit is added when the write is issued (section 9.2, R144). -/
structure Completion where
  seq : Index
  kind : BitVec 8
  tag : Word
  status : Status
  reason : Reason
  interim : Bool
  urgent : Bool
  context : Nat
  elements : Nat
  extra : Nat
  cursorAfter : Word
  mapVersion : Index
  wraps : Nat
  aux : Word
  deriving DecidableEq, Repr

/-! ## Fetch channels and completion units -/

/-- Kind of a fetch read (section 2.3). -/
inductive ReadKind where
  | normal | refetch
  deriving DecidableEq, Repr

/-- The one outstanding fetch read of a channel (section 2.3). -/
structure FetchRead where
  kind : ReadKind
  seq : Index
  addr : Phys
  discard : Bool
  deriving DecidableEq, Repr

/-- A tenant's fetch channel (section 2.3); the defaults are the values of R26. -/
structure Channel where
  fetchIndex : Index := 0
  inFlight : Option FetchRead := none
  /-- a REFETCH waiting to be issued (R31) -/
  refetchWaiting : Bool := false
  stop : Bool := false
  queue : List Entry := []
  deriving DecidableEq, Repr

/-- The one outstanding completion write of a context (section 9.1). -/
structure Post where
  addr : Phys
  data : BitVec 256
  discard : Bool
  deriving DecidableEq, Repr

/-- What the completion unit and the T-port keep for every context (section 9.1); the defaults are those of R142. -/
structure CompletionUnit where
  writeIndex : Index := 0
  consumer : Index := 0
  lap : Bool := true
  pending : Option Completion := none
  post : Option Post := none
  urgent : Bool := false
  lastUrgent : Index := 0
  alert : Option Alert := none
  deriving DecidableEq, Repr

/-- The transfer unit's report that the first `count` elements of record `seq` are acknowledged (R147). -/
structure AckReport where
  seq : Index
  count : Nat
  deriving DecidableEq, Repr

/-! ## Surfaces, windows, maps, waits -/

/-- A surface slot's contents (R38). -/
structure Surface where
  base : Nat
  pitch : Nat
  width : Nat
  height : Nat
  size : Nat
  deriving DecidableEq, Repr

/-- The four surface slots, each absent or present (R38). -/
structure Slots where
  s0 : Option Surface := none
  s1 : Option Surface := none
  s2 : Option Surface := none
  s3 : Option Surface := none
  deriving DecidableEq, Repr

/-- Walk order (R45). -/
inductive Order where
  | row | column
  deriving DecidableEq, Repr

/-- Write-overrun policy (R42). -/
inductive WritePolicy where
  | clip | wrap
  deriving DecidableEq, Repr

/-- Read-overrun policy (R42). -/
inductive ReadPolicy where
  | hold | zero | wrap
  deriving DecidableEq, Repr

/-- A tenant's window (R42). -/
structure Window where
  slot : Fin 4
  x0 : Nat
  y0 : Nat
  x1 : Nat
  y1 : Nat
  order : Order
  xrev : Bool
  yrev : Bool
  writePolicy : WritePolicy
  readPolicy : ReadPolicy
  cursor : Nat
  held : Option Word
  deriving DecidableEq, Repr

/-- One map entry (R99). -/
structure MapEntry where
  v : Bool
  r : Bool
  w : Bool
  ppn : BitVec 26
  deriving DecidableEq, Repr

/-- A tenant's map segment: the pages whose entry is not the clear one, in rising order (R99; `segmentWf`). -/
abbrev Segment := List (Nat × MapEntry)

/-- A map operation held pending for its target, with its fields (R110). -/
inductive MapOp where
  | load (first : Nat) (entries : List MapEntry)
  | clear (first count : Nat)
  deriving DecidableEq, Repr

/-- A tenant's wait phase (section 8.3). -/
inductive WaitPhase where
  | stopped
  | counting (line : Line) (count : Nat) (haltOnTimeout : Bool)
  deriving DecidableEq, Repr

/-- Why a data record last stopped (section 1.6). -/
inductive StopCause where
  | preempted | halted
  deriving DecidableEq, Repr

/-- The progress record (section 1.6). -/
structure Progress where
  cause : StopCause
  done : Nat
  cursorAtStart : Option Nat
  wraps : Nat
  extra : Nat
  faultAddr : Option Nat
  deriving DecidableEq, Repr

/-! ## Contexts -/

/-- A tenant's context record (section 1.2) with the fields the other blocks keep for it; the defaults are the detached
values of R18, R26, R100, R135 and R142. -/
structure Tenant where
  state : TState := .detached
  sqBase : Phys := 0
  sqCode : Nat := 0
  cqBase : Phys := 0
  cqCode : Nat := 0
  producer : Index := 0
  chan : Channel := {}
  current : Option Entry := none
  progress : Option Progress := none
  cu : CompletionUnit := {}
  ackReport : Option AckReport := none
  holdoffTimer : Option Nat := none
  holdoffExpired : Bool := false
  surfaces : Slots := {}
  window : Option Window := none
  weight : Nat := 1
  threshold : Nat := 1
  holdoff : Nat := 0
  haltOnInvalid : Bool := false
  drainRequested : Bool := false
  haltReason : Option HaltReason := none
  recovery : Option Recovery := none
  wait : WaitPhase := .stopped
  waitTimer : Option Nat := none
  tally : Nat := 0
  segment : Segment := []
  mapVersion : Index := 0
  pendingMap : Option MapOp := none
  deriving DecidableEq, Repr

/-- The seven tenants by place: `t1` is context 1. -/
structure Tenants where
  t1 : Tenant := {}
  t2 : Tenant := {}
  t3 : Tenant := {}
  t4 : Tenant := {}
  t5 : Tenant := {}
  t6 : Tenant := {}
  t7 : Tenant := {}
  deriving DecidableEq, Repr

/-- Operation state of the current control record (R17). -/
inductive OpState where
  | executing | waitingTarget
  deriving DecidableEq, Repr

/-- The current control record (R17). -/
structure CtlRecord where
  seq : Index
  data : Record
  op : OpState
  deriving DecidableEq, Repr

/-- The control prefetch entry (R35). -/
structure CtlEntry where
  seq : Index
  data : Record
  deriving DecidableEq, Repr

/-- The QUERY report write in flight (R175), with the map version the report gave. -/
structure QueryWrite where
  addr : Phys
  data : BitVec 512
  mapVersion : Index
  deriving DecidableEq, Repr

/-- The control context record (section 1.8) and the control channel (section 2.8); the defaults are those of R18. -/
structure Control where
  sqBase : Phys := 0
  sqCode : Nat := 0
  cqBase : Phys := 0
  cqCode : Nat := 0
  producer : Index := 0
  fetchIndex : Index := 0
  inFlight : Option FetchRead := none
  entry : Option CtlEntry := none
  current : Option CtlRecord := none
  /-- the discard count of a DETACH that waits, counted at its check (R169, R170) -/
  discardCount : Nat := 0
  query : Option QueryWrite := none
  postStop : Bool := false
  cu : CompletionUnit := {}
  deriving DecidableEq, Repr

/-! ## Transfer unit -/

/-- The four data kinds. -/
inductive DataKind where
  | put | get | copy | fill
  deriving DecidableEq, Repr

/-- What a PUT or GET does at the window's end; `none` for COPY and FILL (R48). -/
inductive Overrun where
  | none | clip | wrap | hold | zero
  deriving DecidableEq, Repr

/-- A rectangle of a surface with a walk order (R45, R46). -/
structure Walk where
  base : Nat
  pitch : Nat
  size : Nat
  x0 : Nat
  y0 : Nat
  width : Nat
  height : Nat
  order : Order
  xrev : Bool
  yrev : Bool
  deriving DecidableEq, Repr

/-- Where the elements of one side of a record lie: a linear array, or the walk of a rectangle. -/
inductive Place where
  | linear (base size : Nat)
  | walk (w : Walk)
  deriving DecidableEq, Repr

/-- The granted data record as the transfer unit holds it from its first grant on: what R61 says is taken there. -/
structure Plan where
  kind : DataKind
  count : Nat
  policy : Overrun
  /-- cursor at start (R47); 0 for COPY and FILL -/
  cs : Nat
  area : Nat
  src : Place
  srcSize : Nat
  dst : Place
  dstSize : Nat
  mode : Nat
  modify : Bool
  mask : Word
  pattern : Word
  /-- the value of a FILL -/
  value : Word
  deriving DecidableEq, Repr

/-- Where an outstanding element stands: its read held or issued, its write held or issued (R86, R87, R184). -/
inductive Stage where
  | readHeld | readIssued | writeHeld | writeIssued
  deriving DecidableEq, Repr

/-- One place of the outstanding set: an element taken up and not ended, or the fill read of R55, which stands at
the ordinal of the first overrun element. -/
structure Elem where
  ord : Nat
  fill : Bool
  stage : Stage
  readAddr : Phys
  writeAddr : Phys
  value : Word
  deriving DecidableEq, Repr

/-- Why taking up has stopped (section 5.2). -/
inductive DrainCause where
  | finish | preempt | halt | abort
  deriving DecidableEq, Repr

/-- Phase of the transfer unit (R85). -/
inductive Phase where
  | free
  | issuing
  | draining (c : DrainCause)
  deriving DecidableEq, Repr

/-- The lowest faulting ordinal found in a drain (R92). -/
structure Faulting where
  ord : Nat
  addr : Nat
  status : Status
  reason : Reason
  deriving DecidableEq, Repr

/-- The transfer unit (section 5.2); the defaults are the values of FREE (R85). The slice size in FREE is the model's
choice, 0: section 5.2 gives the field 256 to 2048, and no rule gives its value before a grant loads it (DESIGN CHOICE,
log 21). -/
structure TransferUnit where
  phase : Phase := .free
  granted : Option TenantId := none
  plan : Option Plan := none
  nextOrd : Nat := 0
  /-- the acknowledged prefix (R88) -/
  done : Nat := 0
  /-- ordinals above the prefix that have ended without fault, rising (R88) -/
  ended : List Nat := []
  wraps : Nat := 0
  extra : Nat := 0
  outstanding : List Elem := []
  sliceCounter : Nat := 0
  /-- loaded at a grant and at a fresh slice (R82, R83); 0 in FREE is a DESIGN CHOICE (log 21) -/
  sliceSize : Nat := 0
  faulting : Option Faulting := none
  deriving DecidableEq, Repr

/-! ## The whole part -/

/-- The answer the T-port gave to an access (R181). -/
inductive TAnswer where
  | ok | error
  deriving DecidableEq, Repr

/-- One flag for each sync line. -/
structure Lines where
  l0 : Bool := false
  l1 : Bool := false
  l2 : Bool := false
  l3 : Bool := false
  deriving DecidableEq, Repr

/-- The state of the part. -/
structure State where
  /-- commands waiting, first in first out -/
  pending : List Instr := []
  rstAsserted : Bool := false
  engine : Engine := .off
  sqCode : BitVec 3 := 0
  cqCode : BitVec 3 := 0
  base : Phys := 0
  control : Control := {}
  tenants : Tenants := {}
  tu : TransferUnit := {}
  /-- the rotation pointer (R81): the tenant considered first -/
  rotation : TenantId := 0
  /-- a grant request sent to the context table and not yet answered (section 5.1, R81) -/
  grantInProgress : Option TenantId := none
  latches : Lines := {}
  /-- DESIGN CHOICE (log 4, 28): timebase steps and grant requests since RST_N was released, the argument of the free
  values -/
  draws : Nat := 0
  /-- DESIGN CHOICE (log 10): the answer given to the last T-port access -/
  tport : Option TAnswer := none
  deriving DecidableEq, Repr

/-- The block never stops with a fault: what the manual calls a fault, an error response or a halt is state. The type
has no constructor, so no meaning can raise one; nothing here is safe or unsafe to rely on. -/
inductive Fault where
  deriving DecidableEq, Repr

/-- Refusals of a command. -/
inductive Refusal where
  /-- Raised only by an arm of `exec` whose command has no meaning yet; safe, the model stops where the part goes on.
  No arm raises it now. -/
  | notModelled (mnemonic : String)
  deriving DecidableEq, Repr

/-- The part right after power-on reset, RST_N released (R18, R133, R158; log 9): every field at the value of the reset
tables, the queue empty. -/
def State.reset : State := {}

end Sys2Proof.Machine
end

