-- ==== Sys2Proof/Machine/Formats.lean ====
section
/-! DEFINITION. The byte layouts of chapter 11: fields of submission records, kind and status codes, the completion
record, the map entry word and the QUERY report. -/

namespace Sys2Proof.Machine

/-! ## Fields of a submission record (R177) -/

/-- The byte at an offset, as an unsigned number. -/
def byteAt (r : Record) (off : Nat) : Nat := (r.extractLsb' (8 * off) 8).toNat

/-- The 2-byte little-endian field at an offset. -/
def halfAt (r : Record) (off : Nat) : Nat := (r.extractLsb' (8 * off) 16).toNat

/-- The 4-byte little-endian field at an offset. -/
def wordAt (r : Record) (off : Nat) : Word := r.extractLsb' (8 * off) 32

/-- The 8-byte little-endian field at an offset. -/
def longAt (r : Record) (off : Nat) : Nat := (r.extractLsb' (8 * off) 64).toNat

/-- Bit `b` of the byte at an offset. -/
def flagAt (r : Record) (off b : Nat) : Bool := r.getLsbD (8 * off + b)

/-- The tag (section 11.1.1). -/
def recordTag (r : Record) : Word := wordAt r 4

/-- The NOTIFY_NOW flag (section 11.1.1). -/
def notifyNow (r : Record) : Bool := flagAt r 1 0

/-- The kind byte as it stands. -/
def kindByte (r : Record) : BitVec 8 := r.extractLsb' 0 8

/-- Kind codes (section 11.1.2); every other code names no kind. -/
def kindOfCode : Nat → Option Kind
  | 0x01 => some .surface
  | 0x02 => some .window
  | 0x03 => some .put
  | 0x04 => some .get
  | 0x05 => some .copy
  | 0x06 => some .fill
  | 0x07 => some .wait
  | 0x08 => some .mark
  | 0x09 => some .probe
  | 0x21 => some .attach
  | 0x22 => some .detach
  | 0x23 => some .drain
  | 0x24 => some .resume
  | 0x25 => some .mapLoad
  | 0x26 => some .mapClear
  | 0x27 => some .setService
  | 0x28 => some .query
  | 0x29 => some .note
  | _ => none

/-- The kind a record names, if any. -/
def kindOf (r : Record) : Option Kind := kindOfCode (kindByte r).toNat

/-- The kinds accepted in a tenant ring (section 11.1.2). -/
def isTenantKind : Kind → Bool
  | .surface | .window | .put | .get | .copy | .fill | .wait | .mark | .probe => true
  | .attach | .detach | .drain | .resume | .mapLoad | .mapClear | .setService | .query | .note => false

/-! ## Codes (sections 11.3.1 and 11.3.2) -/

def statusCode : Status → Nat
  | .ok => 0
  | .invalid => 1
  | .faultAbsent => 2
  | .faultNoRead => 3
  | .faultNoWrite => 4
  | .busError => 5
  | .fetchError => 6
  | .timeout => 7
  | .skipped => 8
  | .wrongState => 9
  | .haltedTarget => 10

/-- Reason codes, numbered within their status: code 1 is UNKNOWN_KIND with INVALID and READ with BUS_ERROR. -/
def reasonCode : Reason → Nat
  | .none => 0
  | .unknownKind => 1
  | .badField => 2
  | .noSurface => 3
  | .notFit => 4
  | .align => 5
  | .noWindow => 6
  | .controlOnly => 7
  | .tenantOnly => 8
  | .badTarget => 9
  | .read => 1
  | .write => 2

def stateCode : TState → Nat
  | .detached => 0
  | .idle => 1
  | .ready => 2
  | .running => 3
  | .waiting => 4
  | .posting => 5
  | .halted => 6
  | .paused => 7
  | .detaching => 8

/-- The state code of context 0 in a QUERY report (R174). -/
def activeCode : Nat := 9

def haltReasonCode : Option HaltReason → Nat
  | none => 0
  | some .absent => 1
  | some .noRead => 2
  | some .noWrite => 3
  | some .busError => 4
  | some .fetchError => 5
  | some .invalid => 6
  | some .timeout => 7
  | some .postError => 8

def alertCode : Option Alert → Nat
  | none => 0
  | some .index => 1
  | some .post => 2

/-- The halt reason an interim completion's status names (R127). -/
def haltReasonOf : Status → Option HaltReason
  | .faultAbsent => some .absent
  | .faultNoRead => some .noRead
  | .faultNoWrite => some .noWrite
  | .busError => some .busError
  | .fetchError => some .fetchError
  | .invalid => some .invalid
  | .timeout => some .timeout
  | .ok | .skipped | .wrongState | .haltedTarget => none

/-! ## The completion record (section 11.3, R179) -/

/-- The flags byte: lap, interim, urgent; the other bits are 0. -/
def completionFlags (lap : Bool) (c : Completion) : BitVec 8 :=
  BitVec.ofNat 8 (lap.toNat + 2 * c.interim.toNat + 4 * c.urgent.toNat)

/-- The 32 bytes of a completion written with this lap bit; the rightmost part lies at offset 0. -/
def encodeCompletion (lap : Bool) (c : Completion) : BitVec 256 :=
  c.aux ++ BitVec.ofNat 16 c.wraps ++ c.mapVersion ++ c.cursorAfter ++ BitVec.ofNat 32 c.extra ++
    BitVec.ofNat 32 c.elements ++ c.tag ++ (0 : BitVec 8) ++ BitVec.ofNat 8 c.context ++ completionFlags lap c ++
    BitVec.ofNat 8 (reasonCode c.reason) ++ BitVec.ofNat 8 (statusCode c.status) ++ c.kind ++ c.seq

/-! ## The map entry word (section 11.2, R178) -/

/-- The entry whose flags are clear and whose PPN is 0 (R100). -/
def clearEntry : MapEntry := { v := false, r := false, w := false, ppn := 0 }

/-- The entry a MAP_LOAD stores from a word: bits 26 to 28 are not stored. -/
def entryOfWord (w : Word) : MapEntry :=
  { v := w.getLsbD 31, r := w.getLsbD 29, w := w.getLsbD 30, ppn := w.extractLsb' 0 26 }

/-- The word a PROBE reports for an entry. -/
def wordOfEntry (e : MapEntry) : Word :=
  BitVec.ofBool e.v ++ BitVec.ofBool e.w ++ BitVec.ofBool e.r ++ (0 : BitVec 3) ++ e.ppn

/-! ## The QUERY report (section 11.4, R180) -/

/-- The fields of a QUERY report. -/
structure Report where
  state : Nat
  haltReason : Nat
  alert : Nat
  drainRequested : Bool
  producer : Index
  fetch : Index
  writeIndex : Index
  consumer : Index
  prefetch : Nat
  weight : Nat
  mapVersion : Index
  currentSeq : Option Index
  progress : Option Nat
  cursor : Word
  area : Nat
  deriving DecidableEq, Repr

/-- The flags byte of a report: drain-requested, current sequence present, progress present. -/
def reportFlags (r : Report) : BitVec 8 :=
  BitVec.ofNat 8 (r.drainRequested.toNat + 2 * r.currentSeq.isSome.toNat + 4 * r.progress.isSome.toNat)

/-- The 64 bytes of a report; the rightmost part lies at offset 0. -/
def encodeReport (r : Report) : BitVec 512 :=
  (0 : BitVec 256) ++ BitVec.ofNat 32 r.area ++ r.cursor ++ BitVec.ofNat 32 (r.progress.getD 0) ++ (0 : BitVec 16) ++
    r.currentSeq.getD 0 ++ r.mapVersion ++ BitVec.ofNat 8 r.weight ++ BitVec.ofNat 8 r.prefetch ++ r.consumer ++
    r.writeIndex ++ r.fetch ++ r.producer ++ reportFlags r ++ BitVec.ofNat 8 r.alert ++ BitVec.ofNat 8 r.haltReason ++
    BitVec.ofNat 8 r.state

end Sys2Proof.Machine
end

