-- ==== Sys2Proof/Machine/Operands.lean ====
section
/-! DEFINITION. Everything a step computes from the fields of a record, a ring, a surface or a window: ring slots, walks
and element addresses, placement under the overrun policies, conversion and modify, translation. -/

namespace Sys2Proof.Machine

/-! ## Rings (R21) -/

/-- Slots of a ring with this size code: 16 times 2 to the power of the code. -/
def ringSlots (code : Nat) : Nat := 16 * 2 ^ code

/-- Address of the slot of index `i` in a ring of this base, modulo 2 to the power of 40. -/
def slotAddr (base : Phys) (code stride : Nat) (i : Index) : Phys :=
  base + BitVec.ofNat 40 (i.toNat % ringSlots code * stride)

/-- Address of a submission slot. -/
def sqSlotAddr (base : Phys) (code : Nat) (i : Index) : Phys := slotAddr base code 64 i

/-- Address of a completion slot. -/
def cqSlotAddr (base : Phys) (code : Nat) (i : Index) : Phys := slotAddr base code 32 i

/-! ## Coded fields (section 11.1.3) -/

def orderOfCode : Nat → Option Order
  | 0 => some .row
  | 1 => some .column
  | _ => none

def writePolicyOfCode : Nat → Option WritePolicy
  | 0 => some .clip
  | 1 => some .wrap
  | _ => none

def readPolicyOfCode : Nat → Option ReadPolicy
  | 0 => some .hold
  | 1 => some .zero
  | 2 => some .wrap
  | _ => none

/-- A control record's target, if it names a tenant (1 to 7). -/
def tenantOfNumber : Nat → Option TenantId
  | 1 => some 0
  | 2 => some 1
  | 3 => some 2
  | 4 => some 3
  | 5 => some 4
  | 6 => some 5
  | 7 => some 6
  | _ => none

/-- The context number of a tenant. -/
def tenantNumber (k : TenantId) : Nat := k.val + 1

/-- A surface slot number, if it is 0 to 3. -/
def slotOfNumber : Nat → Option (Fin 4)
  | 0 => some 0
  | 1 => some 1
  | 2 => some 2
  | 3 => some 3
  | _ => none

/-- A sync line number, if it is 0 to 3. -/
def lineOfNumber (n : Nat) : Option Line := slotOfNumber n

/-- Element sizes (section 3.1). -/
def sizeValid (n : Nat) : Bool := n == 1 || n == 2 || n == 4

/-! ## Walks (R45, R46) -/

/-- Column offset of ordinal `p`. -/
def walkColumn (w : Walk) (p : Nat) : Nat :=
  match w.order with
  | .row => p % w.width
  | .column => p / w.height

/-- Row offset of ordinal `p`. -/
def walkRow (w : Walk) (p : Nat) : Nat :=
  match w.order with
  | .row => p / w.width
  | .column => p % w.height

/-- Column reached by ordinal `p`. -/
def walkX (w : Walk) (p : Nat) : Nat :=
  if w.xrev then w.x0 + w.width - 1 - walkColumn w p else w.x0 + walkColumn w p

/-- Row reached by ordinal `p`. -/
def walkY (w : Walk) (p : Nat) : Nat :=
  if w.yrev then w.y0 + w.height - 1 - walkRow w p else w.y0 + walkRow w p

/-- Logical address of the element at ordinal `p` (R46). -/
def walkAddr (w : Walk) (p : Nat) : Nat := w.base + walkY w p * w.pitch + walkX w p * w.size

/-- Logical address of index `p` of a place. -/
def placeAddr : Place → Nat → Nat
  | .linear base size, p => base + p * size
  | .walk w, p => walkAddr w p

/-- Number of elements of a window (R42). -/
def windowArea (w : Window) : Nat := (w.x1 - w.x0 + 1) * (w.y1 - w.y0 + 1)

/-- The window's walk on its surface (R45). -/
def windowWalk (s : Surface) (w : Window) : Walk :=
  { base := s.base, pitch := s.pitch, size := s.size, x0 := w.x0, y0 := w.y0, width := w.x1 - w.x0 + 1,
    height := w.y1 - w.y0 + 1, order := w.order, xrev := w.xrev, yrev := w.yrev }

def slotGet (t : Slots) (i : Fin 4) : Option Surface :=
  match i with
  | 0 => t.s0
  | 1 => t.s1
  | 2 => t.s2
  | 3 => t.s3

def slotSet (t : Slots) (i : Fin 4) (s : Surface) : Slots :=
  match i with
  | 0 => { t with s0 := some s }
  | 1 => { t with s1 := some s }
  | 2 => { t with s2 := some s }
  | 3 => { t with s3 := some s }

/-- The window and the surface it lies on, when both are present (R42). -/
def windowSurface (t : Tenant) : Option (Window × Surface) :=
  match t.window with
  | none => none
  | some w => (slotGet t.surfaces w.slot).map fun s => (w, s)

/-- The cursor after of a completion: the window cursor, or the value for no window (R59, R179). -/
def windowCursor (t : Tenant) : Word :=
  match t.window with
  | none => Config.noCursor
  | some w => BitVec.ofNat 32 w.cursor

/-! ## Element values (R61 to R65) -/

/-- The bits of an element of `n` bytes. -/
def sizeMask (n : Nat) : Word := BitVec.ofNat 32 (2 ^ (8 * n) - 1)

/-- A value cut to `n` bytes by keeping its least significant bytes. -/
def cutTo (n : Nat) (v : Word) : Word := v &&& sizeMask n

/-- The source bytes of `s` bytes repeated in their order until 4 bytes are filled (R62, REPLICATE). -/
def repeatBytes (s : Nat) (v : Word) : Word :=
  match s with
  | 1 => let b := v.extractLsb' 0 8; b ++ b ++ b ++ b
  | 2 => let h := v.extractLsb' 0 16; h ++ h
  | _ => v

/-- Conversion mode codes (section 11.1.3). -/
abbrev modeZero : Nat := 0
abbrev modeSign : Nat := 1
abbrev modeReplicate : Nat := 2
abbrev modeLow : Nat := 3
abbrev modeHigh : Nat := 4

/-- The widening conversion from `s` to `d` bytes (R62). -/
def widen (mode s d : Nat) (v : Word) : Word :=
  if mode = modeSign then
    if (cutTo s v).getLsbD (8 * s - 1) then cutTo d (cutTo s v ||| ~~~ sizeMask s) else cutTo s v
  else if mode = modeReplicate then cutTo d (repeatBytes s v)
  else cutTo s v

/-- The narrowing conversion from `s` to `d` bytes (R63). -/
def narrow (mode s d : Nat) (v : Word) : Word :=
  if mode = modeHigh then cutTo d (cutTo s v >>> (8 * (s - d))) else cutTo d v

/-- The conversion stage: equal sizes pass the value unchanged (R61). -/
def convert (mode s d : Nat) (v : Word) : Word :=
  if s = d then cutTo s v else if s < d then widen mode s d v else narrow mode s d v

/-- The mode check of R64: true when the size change admits the mode. -/
def modeAdmitted (mode s d : Nat) : Bool :=
  if s = d then true
  else if s < d then mode == modeZero || mode == modeSign || mode == modeReplicate
  else mode == modeLow || mode == modeHigh

/-- The modify stage: AND with the mask, XOR with the pattern, each cut to the destination size (R65). -/
def modifyValue (on : Bool) (mask pattern : Word) (d : Nat) (v : Word) : Word :=
  if on then (v &&& cutTo d mask) ^^^ cutTo d pattern else v

/-- What a value read from a source becomes on its way to memory. -/
def elementValue (p : Plan) (v : Word) : Word :=
  modifyValue p.modify p.mask p.pattern p.dstSize (convert p.mode p.srcSize p.dstSize v)

/-! ## Placement (R48, R50, R52, R56) -/

/-- Element `j` has a window ordinal. -/
def inWindow (p : Plan) (j : Nat) : Bool :=
  match p.policy with
  | .none => false
  | .wrap => true
  | .clip | .hold | .zero => p.cs + j < p.area

/-- The window ordinal of an in-window element. -/
def windowOrdinal (p : Plan) (j : Nat) : Nat :=
  match p.policy with
  | .wrap => (p.cs + j) % p.area
  | .none | .clip | .hold | .zero => p.cs + j

/-- How many of the record's elements are in-window. -/
def inWindowCount (p : Plan) : Nat :=
  match p.policy with
  | .none => 0
  | .wrap => p.count
  | .clip | .hold | .zero => min p.count (p.area - p.cs)

/-- How many elements the record takes up: under CLIP the in-window ones, else all (R52, R86). -/
def takeUps (p : Plan) : Nat :=
  match p.policy with
  | .clip => inWindowCount p
  | .none | .wrap | .hold | .zero => p.count

/-- The surplus a PUT under CLIP counts at its finish (R52). -/
def excess (p : Plan) : Nat := p.count - takeUps p

/-- Element `j` begins with a read (R86, R87). -/
def elementReads (p : Plan) (j : Nat) : Bool :=
  match p.kind with
  | .put | .copy => true
  | .fill => false
  | .get => inWindow p j

/-- Element `j` lands on window ordinal area minus 1. -/
def isLast (p : Plan) (j : Nat) : Bool := inWindow p j && windowOrdinal p j + 1 == p.area

/-- Logical address of element `j`'s read. -/
def srcAddr (p : Plan) (j : Nat) : Nat :=
  match p.kind with
  | .get => placeAddr p.src (windowOrdinal p j)
  | .put | .copy | .fill => placeAddr p.src j

/-- Logical address of element `j`'s destination write. -/
def dstAddr (p : Plan) (j : Nat) : Nat :=
  match p.kind with
  | .put => placeAddr p.dst (windowOrdinal p j)
  | .get | .copy | .fill => placeAddr p.dst j

/-- Logical address of the window's last element, which the fill read of a GET reads (R55). -/
def fillAddr (p : Plan) : Nat := placeAddr p.src (p.area - 1)

/-- One step of the window cursor at an acknowledged in-window write (R49). -/
def cursorStep (wrap : Bool) (area c : Nat) : Nat :=
  if wrap then (if c % area + 1 = area then 0 else c % area + 1) else c + 1

/-- Cursor at start advanced by the in-window elements among `n` elements done (R13, R49). -/
def cursorAdvanced (p : Plan) (n : Nat) : Nat :=
  match p.policy with
  | .wrap => if n = 0 then p.cs else (p.cs + n) % p.area
  | .none | .clip | .hold | .zero => p.cs + min n (inWindowCount p)

/-! ## Plans: what R61 takes from the record, the surfaces and the window -/

def planPut (r : Record) (w : Window) (s : Surface) (cs : Nat) : Plan :=
  { kind := .put, count := (wordAt r 16).toNat,
    policy := match w.writePolicy with | .clip => .clip | .wrap => .wrap,
    cs := cs, area := windowArea w,
    src := .linear (wordAt r 12).toNat (byteAt r 8), srcSize := byteAt r 8,
    dst := .walk (windowWalk s w), dstSize := s.size,
    mode := byteAt r 9, modify := flagAt r 10 0, mask := wordAt r 20, pattern := wordAt r 24, value := 0 }

def planGet (r : Record) (w : Window) (s : Surface) (cs : Nat) : Plan :=
  { kind := .get, count := (wordAt r 16).toNat,
    policy := match w.readPolicy with | .hold => .hold | .zero => .zero | .wrap => .wrap,
    cs := cs, area := windowArea w,
    src := .walk (windowWalk s w), srcSize := s.size,
    dst := .linear (wordAt r 12).toNat (byteAt r 8), dstSize := byteAt r 8,
    mode := byteAt r 9, modify := flagAt r 10 0, mask := wordAt r 20, pattern := wordAt r 24, value := 0 }

/-- The rectangle of a COPY or FILL on a surface. -/
def rectWalk (s : Surface) (x y width height : Nat) (order : Order) (xrev yrev : Bool) : Walk :=
  { base := s.base, pitch := s.pitch, size := s.size, x0 := x, y0 := y, width := width, height := height,
    order := order, xrev := xrev, yrev := yrev }

def planCopy (r : Record) (src dst : Surface) (order : Order) : Plan :=
  let xrev := flagAt r 11 0
  let yrev := flagAt r 11 1
  { kind := .copy, count := halfAt r 24 * halfAt r 26, policy := .none, cs := 0, area := 0,
    src := .walk (rectWalk src (halfAt r 16) (halfAt r 18) (halfAt r 24) (halfAt r 26) order xrev yrev),
    srcSize := src.size,
    dst := .walk (rectWalk dst (halfAt r 20) (halfAt r 22) (halfAt r 24) (halfAt r 26) order xrev yrev),
    dstSize := dst.size,
    mode := byteAt r 12, modify := flagAt r 13 0, mask := wordAt r 28, pattern := wordAt r 32, value := 0 }

def planFill (r : Record) (dst : Surface) : Plan :=
  { kind := .fill, count := halfAt r 16 * halfAt r 18, policy := .none, cs := 0, area := 0,
    src := .linear 0 0, srcSize := 0,
    dst := .walk (rectWalk dst (halfAt r 12) (halfAt r 14) (halfAt r 16) (halfAt r 18) .row false false),
    dstSize := dst.size,
    mode := 0, modify := false, mask := 0, pattern := 0, value := wordAt r 20 }

/-- The plan of a data record of a tenant with this cursor at start, when what it names is present. -/
def planOf (t : Tenant) (r : Record) (cs : Nat) : Option Plan :=
  match kindOf r with
  | some .put => (windowSurface t).map fun ws => planPut r ws.1 ws.2 cs
  | some .get => (windowSurface t).map fun ws => planGet r ws.1 ws.2 cs
  | some .copy =>
    match slotOfNumber (byteAt r 8), slotOfNumber (byteAt r 9), orderOfCode (byteAt r 10) with
    | some a, some b, some o =>
      match slotGet t.surfaces a, slotGet t.surfaces b with
      | some src, some dst => some (planCopy r src dst o)
      | _, _ => none
    | _, _, _ => none
  | some .fill =>
    match slotOfNumber (byteAt r 8) with
    | some a => (slotGet t.surfaces a).map fun dst => planFill r dst
    | none => none
  | _ => none

/-! ## The map segment and translation (R99, R101, R102) -/

/-- The entry of a page; a page that is not listed holds the clear entry. -/
def segGet : Segment → Nat → MapEntry
  | [], _ => clearEntry
  | (p, e) :: rest, q => if q = p then e else segGet rest q

/-- Access of a translation request. -/
inductive Access where
  | read | write
  deriving DecidableEq, Repr

/-- Answer of a translation request: a physical address, or the status of the fault. -/
inductive Translation where
  | phys (a : Phys)
  | fault (s : Status)
  deriving DecidableEq, Repr

/-- Translation of a logical address through a segment: V is checked before R and W. -/
def translateAccess (seg : Segment) (a : Nat) (acc : Access) : Translation :=
  let e := segGet seg (a / Config.pageBytes)
  let phys : Phys := BitVec.ofNat 40 (e.ppn.toNat * Config.pageBytes + a % Config.pageBytes)
  if e.v = false then .fault .faultAbsent
  else match acc with
    | .read => if e.r then .phys phys else .fault .faultNoRead
    | .write => if e.w then .phys phys else .fault .faultNoWrite

/-- Two transactions touch a common byte (R66). -/
def overlaps (a : Phys) (n : Nat) (b : Phys) (m : Nat) : Bool :=
  a.toNat < b.toNat + m && b.toNat < a.toNat + n

end Sys2Proof.Machine
end

