-- ==== Sys2Proof/Machine/Ops.lean ====
section
/-! DEFINITION. The named operations the meanings share: access to tenants, lines and map segments, the builders of
completions, what the context table does at a take, a boundary, a halt and a detach, the end of a run, the taking and
ending of control records, and the resets. -/

namespace Sys2Proof.Machine

/-! ## Access -/

/-- The context record of a tenant. -/
def getTenant (s : State) (k : TenantId) : Tenant :=
  match k with
  | 0 => s.tenants.t1
  | 1 => s.tenants.t2
  | 2 => s.tenants.t3
  | 3 => s.tenants.t4
  | 4 => s.tenants.t5
  | 5 => s.tenants.t6
  | 6 => s.tenants.t7

/-- The tenants with one of them replaced. -/
def putTenant (ts : Tenants) (k : TenantId) (t : Tenant) : Tenants :=
  match k with
  | 0 => { ts with t1 := t }
  | 1 => { ts with t2 := t }
  | 2 => { ts with t3 := t }
  | 3 => { ts with t4 := t }
  | 4 => { ts with t5 := t }
  | 5 => { ts with t6 := t }
  | 6 => { ts with t7 := t }

/-- The state with one tenant's context record replaced. -/
def setTenant (s : State) (k : TenantId) (t : Tenant) : State := { s with tenants := putTenant s.tenants k t }

/-- A function applied to every tenant. -/
def mapTenants (s : State) (f : TenantId → Tenant → Tenant) : State :=
  { s with tenants :=
    { t1 := f 0 s.tenants.t1, t2 := f 1 s.tenants.t2, t3 := f 2 s.tenants.t3, t4 := f 3 s.tenants.t4,
      t5 := f 4 s.tenants.t5, t6 := f 5 s.tenants.t6, t7 := f 6 s.tenants.t7 } }

/-- The seven tenants in rising order. -/
def tenantIds : List TenantId := [0, 1, 2, 3, 4, 5, 6]

def getLine (f : Lines) (l : Line) : Bool :=
  match l with
  | 0 => f.l0
  | 1 => f.l1
  | 2 => f.l2
  | 3 => f.l3

def setLine (f : Lines) (l : Line) (b : Bool) : Lines :=
  match l with
  | 0 => { f with l0 := b }
  | 1 => { f with l1 := b }
  | 2 => { f with l2 := b }
  | 3 => { f with l3 := b }

/-- The engine is ON or CTL_STOPPED: the states in which tenants and current control records are served (R161). -/
def serving (s : State) : Bool := s.engine == .on || s.engine == .ctlStopped

/-- A tenant index write, fetch read or post may act: the tenant is attached and not being aborted (R23, R27, R144). -/
def attached (t : Tenant) : Bool := t.state != .detached && t.state != .detaching

/-! ## The map store (R99, R109) -/

/-- Writes one entry, keeping the canonical form. -/
def segSet : Segment → Nat → MapEntry → Segment
  | [], q, e => if e = clearEntry then [] else [(q, e)]
  | (p, f) :: rest, q, e =>
    if q < p then (if e = clearEntry then (p, f) :: rest else (q, e) :: (p, f) :: rest)
    else if q = p then (if e = clearEntry then rest else (q, e) :: rest)
    else (p, f) :: segSet rest q e

/-- Every page of the list is above `lo`, rising, below 512, with an entry that is not clear. -/
def segmentWfAbove : Nat → Segment → Bool
  | _, [] => true
  | lo, (p, e) :: rest => decide (lo ≤ p) && decide (p < Config.pages) && !(decide (e = clearEntry)) && segmentWfAbove (p + 1) rest

/-- The canonical form of a segment. -/
def segmentWf (seg : Segment) : Bool := segmentWfAbove 0 seg

/-- Writes entries to consecutive pages from `first`. -/
def segWrite : Segment → Nat → List MapEntry → Segment
  | seg, _, [] => seg
  | seg, first, e :: rest => segWrite (segSet seg first e) (first + 1) rest

/-- Clears `count` pages from `first`. -/
def segClear : Segment → Nat → Nat → Segment
  | seg, _, 0 => seg
  | seg, first, n + 1 => segClear (segSet seg first clearEntry) (first + 1) n

/-- What a map operation makes of a segment (R109). -/
def mapOpSegment : MapOp → Segment → Segment
  | .load first entries, seg => segWrite seg first entries
  | .clear first count, seg => segClear seg first count

/-- Entries or pages of a map operation: the elements done of its completion (R112). -/
def mapOpCount : MapOp → Nat
  | .load _ entries => entries.length
  | .clear _ count => count

/-- A map operation applied to its target: entries and version change together, and nothing pends (R109). -/
def applyMap (op : MapOp) (t : Tenant) : Tenant :=
  { t with segment := mapOpSegment op t.segment, mapVersion := t.mapVersion + 1, pendingMap := none }

/-- The tenant holds a run of its current record, as the context table reports it (R11). -/
def holdsRun (t : Tenant) : Bool :=
  match t.state with
  | .running | .detaching => true
  | .ready => match t.progress with
    | some p => p.cause == .preempted
    | none => false
  | _ => false

/-! ## Completions (section 9.2) -/

/-- A tenant completion built now from the current record: kind, tag and NOTIFY_NOW as it stands (R3), the map version
of this step; the urgent flag is set for an interim completion and for NOTIFY_NOW (R118, R155). -/
def tenantCompletion (k : TenantId) (t : Tenant) (status : Status) (reason : Reason) (interim : Bool)
    (elements extra wraps : Nat) (cursor aux : Word) : Completion :=
  { seq := match t.current with | some e => e.seq | none => 0,
    kind := match t.current with | some ⟨_, .record r⟩ => kindByte r | _ => 0,
    tag := match t.current with | some ⟨_, .record r⟩ => recordTag r | _ => 0,
    status := status, reason := reason, interim := interim,
    urgent := interim || (match t.current with | some ⟨_, .record r⟩ => notifyNow r | _ => false),
    context := tenantNumber k, elements := elements, extra := extra, cursorAfter := cursor,
    mapVersion := t.mapVersion, wraps := wraps, aux := aux }

/-- A control completion (R165). -/
def controlCompletion (c : CtlRecord) (status : Status) (reason : Reason) (elements extra : Nat) (version : Index)
    (aux : Nat) : Completion :=
  { seq := c.seq, kind := kindByte c.data, tag := recordTag c.data, status := status, reason := reason,
    interim := false, urgent := notifyNow c.data, context := 0, elements := elements, extra := extra,
    cursorAfter := Config.noCursor, mapVersion := version, wraps := 0, aux := BitVec.ofNat 32 aux }

/-- Hands a completion to the completion unit as the context's pending completion (R143). -/
def withPending (t : Tenant) (c : Completion) : Tenant := { t with cu := { t.cu with pending := some c } }

/-- Enters POSTING with a terminal completion; the progress record is discarded (R10, R14). -/
def enterPosting (t : Tenant) (c : Completion) : Tenant :=
  { withPending t c with state := .posting, progress := none }

/-- Enters HALTED with its reason and an interim completion (R15). -/
def enterHalted (t : Tenant) (reason : HaltReason) (c : Completion) : Tenant :=
  { withPending t c with state := .halted, haltReason := some reason }

/-- A record refused with INVALID: terminal and POSTING, or interim and HALTED, by HALT_ON_INVALID (R7, R59, R119). -/
def refuseRecord (k : TenantId) (t : Tenant) (reason : Reason) : Tenant :=
  if t.haltOnInvalid then
    enterHalted t .invalid (tenantCompletion k t .invalid reason true 0 0 0 (windowCursor t) 0)
  else enterPosting t (tenantCompletion k t .invalid reason false 0 0 0 (windowCursor t) 0)

/-- The FETCH_ERROR halt of a failed entry that is the current record (R6, R125). -/
def haltFetchError (k : TenantId) (t : Tenant) : Tenant :=
  enterHalted t .fetchError (tenantCompletion k t .fetchError .none true 0 0 0 Config.noCursor 0)

/-! ## Waits (R133, R136 to R139, R154) -/

/-- The timer unit's check and begin of the WAIT record `r` of a WAITING tenant (R136); refused under R119. -/
def startWait (k : TenantId) (t : Tenant) (r : Record) : Tenant :=
  match lineOfNumber (byteAt r 8) with
  | none => refuseRecord k t .badField
  | some l =>
    if byteAt r 9 = 0 ∨ 15 < byteAt r 9 then refuseRecord k t .badField
    else { t with tally := 0, wait := .counting l (byteAt r 9) (flagAt r 10 0),
                  waitTimer := if halfAt r 12 = 0 then none else some (halfAt r 12) }

/-- The check and begin of a WAIT that is current and not begun. -/
def beginWait (k : TenantId) (t : Tenant) : Tenant :=
  match t.state, t.wait, t.current with
  | .waiting, .stopped, some ⟨_, .record r⟩ => startWait k t r
  | _, _, _ => t

/-- An arrival on a line, as one tenant takes it (R137). -/
def takeArrival (l : Line) (k : TenantId) (t : Tenant) : Tenant :=
  match t.wait with
  | .stopped => t
  | .counting line count _ =>
    if line ≠ l then t
    else if t.tally + 1 = count then
      let t' := { t with tally := t.tally + 1, wait := .stopped, waitTimer := none }
      if t.state = .waiting then
        enterPosting t' (tenantCompletion k t' .ok .none false count 0 0 (windowCursor t')
          (BitVec.ofNat 32 (t.waitTimer.getD 0)))
      else t'
    else { t with tally := t.tally + 1 }

/-- The expiry of a tenant's wait timer, when it stands at 0 (R138). -/
def expireWait (k : TenantId) (t : Tenant) : Tenant :=
  match t.wait, t.waitTimer with
  | .counting _ _ halting, some 0 =>
    let t' := { t with wait := .stopped, waitTimer := none }
    if t.state = .waiting then
      if halting then
        enterHalted t' .timeout (tenantCompletion k t' .timeout .none true t'.tally 0 0 (windowCursor t') 0)
      else enterPosting t' (tenantCompletion k t' .timeout .none false t'.tally 0 0 (windowCursor t') 0)
    else t'
  | _, _ => t

/-- The expiry of a tenant's holdoff timer, when it stands at 0 (R154). -/
def expireHoldoff (t : Tenant) : Tenant :=
  match t.holdoffTimer with
  | some 0 => { t with holdoffTimer := none, holdoffExpired := true }
  | _ => t

/-- A timer decremented by one (R133). -/
def tickTimer : Option Nat → Option Nat
  | some (n + 1) => some n
  | x => x

/-- The arrivals that the set latches deliver, as one tenant takes them: the one on the line it counts (R134, R137). -/
def takeArrivals (latches : Lines) (k : TenantId) (t : Tenant) : Tenant :=
  match t.wait with
  | .stopped => t
  | .counting l _ _ => if getLine latches l then takeArrival l k t else t

/-- An arrival on the line a tenant counts and the expiry of its wait timer come at this same timebase step (R139). -/
def arrivalMeetsExpiry (latches : Lines) (t : Tenant) : Bool :=
  match t.wait, t.waitTimer with
  | .counting l _ _, some 1 => getLine latches l
  | _, _ => false

/-- One tenant at a timebase step (R133, R134, R137 to R139, R154): its timers are decremented, its arrivals taken, and
the timers brought to 0 expire, the wait timer first or after the arrivals. -/
def timebaseTenant (latches : Lines) (expiryFirst : Bool) (k : TenantId) (t : Tenant) : Tenant :=
  let ticked := { t with waitTimer := tickTimer t.waitTimer, holdoffTimer := tickTimer t.holdoffTimer }
  expireHoldoff
    (if expiryFirst then takeArrivals latches k (expireWait k ticked) else expireWait k (takeArrivals latches k ticked))

/-- A timebase step (R133, R134): every tenant's timers and arrivals, and the latches cleared. Where an arrival and an
expiry of one tenant meet, `expiryFirst` says which is taken first (R139). -/
def timebaseStep (s : State) (expiryFirst : TenantId → Bool) : State :=
  let stepped := mapTenants s fun k t =>
    timebaseTenant s.latches (arrivalMeetsExpiry s.latches t && expiryFirst k) k t
  { stepped with latches := {}, draws := s.draws + 1 }

/-! ## The context table: taking a record, record boundaries -/

/-- The state that follows from what the current record holds (R5, R6, R7). A WAIT is checked and begun, or refused, in
this same step (section 8.4, R136). -/
def admitCurrent (k : TenantId) (t : Tenant) : Tenant :=
  match t.current with
  | none => t
  | some ⟨_, .failed⟩ => haltFetchError k t
  | some ⟨_, .record r⟩ =>
    match kindOf r with
    | none => refuseRecord k t .unknownKind
    | some .wait => startWait k { t with state := .waiting } r
    | some kd => if isTenantKind kd then { t with state := .ready, progress := none } else refuseRecord k t .controlOnly

/-- Takes the head of the prefetch queue as the current record (R5). -/
def takeHead (k : TenantId) (t : Tenant) : Tenant :=
  match t.chan.queue with
  | [] => t
  | e :: rest => admitCurrent k { t with current := some e, chan := { t.chan with queue := rest } }

/-- The record boundary (R8): the head is taken in the same step, or the tenant enters PAUSED (R9) or IDLE. -/
def recordBoundary (k : TenantId) (t : Tenant) : Tenant :=
  let t' := { t with current := none, ackReport := none, cu := { t.cu with pending := none } }
  match t'.chan.queue with
  | _ :: _ => takeHead k t'
  | [] =>
    if t'.drainRequested && t'.chan.inFlight.isNone then { t' with state := .paused } else { t' with state := .idle }

/-! ## Fetch channels -/

/-- Issues the REFETCH of the current record's slot: the fetch index does not move (R31). -/
def issueRefetch (t : Tenant) : Tenant :=
  match t.current with
  | none => t
  | some e =>
    { t with chan := { t.chan with
        refetchWaiting := false,
        inFlight := some { kind := .refetch, seq := e.seq, addr := sqSlotAddr t.sqBase t.sqCode e.seq,
                           discard := false } } }

/-- A read leaves the channel; a REFETCH waiting for it is issued in the same step (R31). -/
def endRead (t : Tenant) : Tenant :=
  let t' := { t with chan := { t.chan with inFlight := none } }
  if t'.chan.refetchWaiting then issueRefetch t' else t'

/-- The queue holds a failed entry (R30). -/
def queueHasFailed (q : List Entry) : Bool := q.any fun e => e.body == .failed

/-- Clears the fetch stop unless a failed entry is queued (R30). -/
def clearStop (t : Tenant) : Tenant :=
  if queueHasFailed t.chan.queue then t else { t with chan := { t.chan with stop := false } }

/-- Marks the read in flight for discard (R33). -/
def markRead (r : Option FetchRead) : Option FetchRead := r.map fun x => { x with discard := true }

/-- Marks the post in flight for discard (R149). -/
def markPost (p : Option Post) : Option Post := p.map fun x => { x with discard := true }

/-! ## Detach (R20, R26, R33, R142, R149) -/

/-- The detached values; a read or post still in flight keeps its place, marked. -/
def detachTenant (t : Tenant) : Tenant :=
  { ({} : Tenant) with
    chan := { ({} : Channel) with inFlight := markRead t.chan.inFlight },
    cu := { ({} : CompletionUnit) with post := markPost t.cu.post } }

/-- The step in which DETACH takes a RUNNING tenant: queue emptied, fetch index 0, stop cleared, reads and posts marked,
pending completion dropped, holdoff stopped; record, progress and window kept (R20, R33, R142, R154, R169). -/
def beginDetaching (t : Tenant) : Tenant :=
  { t with
    state := .detaching,
    chan := { ({} : Channel) with inFlight := markRead t.chan.inFlight },
    cu := { t.cu with pending := none, post := markPost t.cu.post },
    holdoffTimer := none, holdoffExpired := false }

/-- The discard count (R170): the current record, and each queue entry. -/
def discardCountOf (t : Tenant) : Nat := (if t.current.isSome then 1 else 0) + t.chan.queue.length

/-! ## Control records (R17, R164) -/

/-- Hands over the completion of the current control record; its operation state is EXECUTING (R17, R164). -/
def completeControl (s : State) (c : CtlRecord) (comp : Completion) : State :=
  { s with control := { s.control with
      current := some { c with op := .executing }, cu := { s.control.cu with pending := some comp } } }

/-- Takes the control prefetch entry as the current control record, in ACTIVE with none current; the kind byte is
checked in the same step (R17, R164). A control kind is then carried out by its own command (log 2). -/
def takeControl (s : State) : State :=
  match s.engine, s.control.current, s.control.entry with
  | .on, none, some e =>
    let c : CtlRecord := { seq := e.seq, data := e.data, op := .executing }
    let s' := { s with control := { s.control with entry := none, current := some c } }
    match kindOf e.data with
    | none => completeControl s' c (controlCompletion c .invalid .unknownKind 0 0 0 0)
    | some kd =>
      if isTenantKind kd then completeControl s' c (controlCompletion c .invalid .tenantOnly 0 0 0 0) else s'
  | _, _, _ => s

/-- The control-record boundary: record, operation state and completion become absent, and the next is taken (R17). -/
def controlBoundary (s : State) : State :=
  takeControl { s with control := { s.control with current := none, cu := { s.control.cu with pending := none } } }

/-- The current control record when it is of this kind and not carried out yet: EXECUTING, with no completion built and
no report write in flight, in ON or CTL_STOPPED (R161, R164). -/
def currentControl (s : State) (kd : Kind) : Option CtlRecord :=
  if serving s then
    match s.control.current with
    | some c =>
      if c.op = .executing ∧ s.control.cu.pending = none ∧ s.control.query = none ∧ kindOf c.data = some kd then some c
      else none
    | none => none
  else none

/-- The control record waits on its target (R164). -/
def waitOnTarget (s : State) (c : CtlRecord) : State :=
  { s with control := { s.control with current := some { c with op := .waitingTarget } } }

/-! ## The end of a run (R11, R110) -/

/-- The context table reports the end of `k`'s run to the map unit: an operation pending for `k` is applied, and its
control completion is built with aux 1 (R110, R112). -/
def endOfRun (s : State) (k : TenantId) : State :=
  let t := getTenant s k
  match t.pendingMap with
  | none => s
  | some op =>
    let t' := applyMap op t
    let s' := setTenant s k t'
    match s.control.current with
    | none => s'
    | some c => completeControl s' c (controlCompletion c .ok .none (mapOpCount op) 0 t'.mapVersion 1)

/-! ## Outstanding transactions and resets (R18, R19, R162, R163) -/

/-- The element has a transaction at the M-port. -/
def inFlightStage : Stage → Bool
  | .readIssued | .writeIssued => true
  | .readHeld | .writeHeld => false

def optCount {α : Type} : Option α → Nat
  | none => 0
  | some _ => 1

/-- Transactions of one tenant's fetch channel and completion unit at the M-port. -/
def tenantOutstanding (t : Tenant) : Nat := optCount t.chan.inFlight + optCount t.cu.post

/-- Transactions the M-port holds (R163). -/
def mportOutstanding (s : State) : Nat :=
  (tenantIds.map fun k => tenantOutstanding (getTenant s k)).sum +
    (s.tu.outstanding.filter fun e => inFlightStage e.stage).length +
    optCount s.control.inFlight + optCount s.control.cu.post + optCount s.control.query

/-- The values of the reset tables in every block, the stored size codes and base kept (R19, R162). The timebase runs on
(R133). -/
def resetBlocks (s : State) : State :=
  { ({} : State) with
    pending := s.pending, rstAsserted := s.rstAsserted, sqCode := s.sqCode, cqCode := s.cqCode, base := s.base,
    draws := s.draws, tport := s.tport }

/-- While RESETTING, the reset ends in the step in which nothing is outstanding any more (R162). -/
def endResetIfDrained (s : State) : State :=
  if s.engine = .resetting ∧ mportOutstanding s = 0 then resetBlocks s else s

/-! ## Alerts (R151) -/

/-- The alert cause after an INDEX or POST alert. -/
def recordAlert (old : Option Alert) (new : Alert) : Option Alert :=
  match old, new with
  | some .post, .index => some .post
  | _, a => some a

/-! ## Posting (R144) -/

/-- Completions written and not yet consumed, in index arithmetic (section 9.6). -/
def unconsumed (cu : CompletionUnit) : Nat := (cu.writeIndex - cu.consumer).toNat

/-- A completion of kind PUT, GET, COPY or FILL (R147). -/
def isDataCompletion (c : Completion) : Bool :=
  match kindOfCode c.kind.toNat with
  | some .put | some .get | some .copy | some .fill => true
  | _ => false

/-- The acknowledgement report covers the elements done of the completion (R147). -/
def reportCovers (r : Option AckReport) (c : Completion) : Bool :=
  !isDataCompletion c || c.elements == 0 ||
    (match r with
     | some a => a.seq == c.seq && decide (c.elements ≤ a.count)
     | none => false)

/-- The completion unit's state after issuing the write of completion `c` at the slot of the write index: the
write index and lap flag do not move (R144). -/
def issuePost (cu : CompletionUnit) (base : Phys) (code : Nat) (c : Completion) : CompletionUnit :=
  { cu with post := some { addr := cqSlotAddr base code cu.writeIndex, data := encodeCompletion cu.lap c,
                           discard := false } }

/-- Issues a tenant's pending completion when the conditions of R144 hold (the engine's aside). -/
def tryPostTenant (t : Tenant) : Tenant :=
  match t.cu.pending with
  | some c =>
    if t.cu.post = none ∧ unconsumed t.cu < ringSlots t.cqCode ∧ attached t = true ∧
        t.haltReason ≠ some .postError ∧ reportCovers t.ackReport c = true then
      { t with cu := issuePost t.cu t.cqBase t.cqCode c }
    else t
  | none => t

/-- Issues the control context's pending completion when the conditions of R144 hold (the engine's aside). -/
def tryPostControl (c : Control) : Control :=
  match c.cu.pending with
  | some p =>
    if c.cu.post = none ∧ unconsumed c.cu < ringSlots c.cqCode ∧ c.postStop = false then
      { c with cu := issuePost c.cu c.cqBase c.cqCode p }
    else c
  | none => c

/-! ## The control channel (R35) -/

/-- Issues a NORMAL read of the control ring when the conditions of R35 hold. -/
def tryControlRead (s : State) : State :=
  let waits := match s.control.current with | some c => c.op == .waitingTarget | none => false
  if s.engine = .on ∧ s.control.producer ≠ s.control.fetchIndex ∧ s.control.inFlight = none ∧
      s.control.entry = none ∧ waits = false then
    { s with control := { s.control with
        fetchIndex := s.control.fetchIndex + 1,
        inFlight := some { kind := .normal, seq := s.control.fetchIndex,
                           addr := sqSlotAddr s.control.sqBase s.control.sqCode s.control.fetchIndex,
                           discard := false } } }
  else s

end Sys2Proof.Machine
end

