-- ==== Sys2Proof/WellFormed.lean ====
section
/-! DEFINITION. Which commands are well formed: the operands of each row are what the row's own words say they are.
Contexts, tenants, lines and halves are in range by their types. -/

namespace Sys2Proof

/-- Engine word bit 0, ENABLE (section 11.5.1). -/
def engineEnableBit (w : Word) : Bool := w.getLsbD 0

/-- Engine word bit 1, SOFT_RESET (section 11.5.1). -/
def engineSoftResetBit (w : Word) : Bool := w.getLsbD 1

/-- A T-port access the part takes: 4 bytes at a multiple of 4 (R181). -/
def accessAligned (offset : BitVec 8) (size : Nat) : Bool := size == 4 && offset.toNat % 4 == 0

/-- An offset at which a write is taken with no effect: the identification word, or no word (R181, section 11.5). -/
def offsetHasNoWrite (offset : BitVec 8) : Bool :=
  offset.toNat % 4 == 0 &&
    (offset.toNat == 0 || (0x14 ≤ offset.toNat && offset.toNat < 0x20) || 0x60 ≤ offset.toNat)

/-- The operands of a command fit its row. -/
def Instr.wellFormed : Instr → Bool
  | .enable w => engineEnableBit w && !engineSoftResetBit w
  | .softReset w => engineSoftResetBit w
  | .sizeCodeStore w => !engineEnableBit w && !engineSoftResetBit w
  | .registerWriteOther offset _ => offsetHasNoWrite offset
  | .elementWriteAck ord => ord < 16777216
  | .heldTransactionIssue (.element ord) => ord < 16777216
  | .elementReadAck (.element ord) _ => ord < 16777216
  | .elementErrorResponse (.element ord) => ord < 16777216
  | .producerIndexWrite _ _ | .consumerIndexWrite _ _ | .alertWordWrite _ | .controlRingBaseWrite _ _
  | .tPortBadAccess _ _ _ | .rstNAssert | .rstNRelease | .softResetEnd | .syncEdge _ | .arrival _
  | .waitTimeout _ | .holdoffExpiry _ | .fetchReadIssue _ | .controlReadIssue | .fetchReadAck _ _
  | .fetchReadError _ | .controlFetchAck _ | .controlFetchError | .refetchAck _ _ | .refetchError _
  | .discardedReadAnswer _ _ | .grant | .surface | .window | .put | .get | .copy | .fill | .mark | .probe
  | .wait _ | .takeUp | .heldTransactionIssue .fill | .elementReadAck .fill _ | .elementErrorResponse .fill
  | .drainFinish | .drainPreempt | .drainHalt | .abortDone | .mapPendingApply _ | .postIssue _ | .postAck _
  | .recoveryAfterPost _ | .postError _ | .discardedPostAnswer _ _ | .attach | .detach | .drain | .drainEnd
  | .resumeRetry | .resumeSkip | .mapLoad | .mapClear | .setService | .query | .queryReportAck
  | .queryReportError | .note | .timebaseStep => true

end Sys2Proof
end

