-- ==== Sys2Proof/Machine/Flags.lean ====
section
/-! DEFINITION. What the part shows outside that is computed from its state: the NOTIFY lines, the alert word, the other
register words, the READY set and the control context's state. -/

namespace Sys2Proof.Machine

/-- The control context's state follows the engine state (R16). -/
def controlState (e : Engine) : CState :=
  match e with
  | .off => .off
  | .on => .active
  | .ctlStopped => .stopped
  | .resetting => .off

/-- The READY set: the tenants in READY, in rising order (R80). -/
def readySet (s : State) : List TenantId := tenantIds.filter fun k => (getTenant s k).state == .ready

/-- Notify threshold of context 0, fixed (R156). -/
abbrev controlThreshold : Nat := 1

/-- The alert cause of a context. -/
def alertOf (s : State) (c : Ctx) : Option Alert :=
  match c with
  | .control => s.control.cu.alert
  | .tenant k => (getTenant s k).cu.alert

/-- Some context's alert cause is present: the alert word is nonzero (R153). -/
def anyAlert (s : State) : Bool :=
  s.control.cu.alert.isSome || tenantIds.any fun k => (getTenant s k).cu.alert.isSome

/-- The level of a context's NOTIFY line (R153): low under RST_N and while RESETTING; in OFF NOTIFY0 follows the alert
word alone. -/
def notifyLine (s : State) (c : Ctx) : Bool :=
  if s.rstAsserted || s.engine == .resetting then false
  else match c with
    | .control =>
      anyAlert s || (serving s && (decide (controlThreshold ≤ unconsumed s.control.cu) || s.control.cu.urgent))
    | .tenant k =>
      let t := getTenant s k
      serving s && attached t &&
        (decide (t.threshold ≤ unconsumed t.cu) || t.holdoffExpired || t.cu.urgent)

/-! ## Register words (section 11.5.1) -/

def engineCode : Engine → Nat
  | .off => 0
  | .on => 1
  | .ctlStopped => 2
  | .resetting => 3

/-- The engine word as read: ENABLE and SOFT_RESET read 0 (R158). -/
def engineWord (s : State) : Word :=
  BitVec.ofNat 32 (s.sqCode.toNat * 2 ^ 4 + s.cqCode.toNat * 2 ^ 8 + engineCode s.engine * 2 ^ 16)

/-- Low half of the control-ring base word (R182). -/
def baseLowWord (s : State) : Word := s.base.extractLsb' 0 32

/-- High half of the control-ring base word (R182). -/
def baseHighWord (s : State) : Word := (s.base.extractLsb' 32 8).setWidth 32

/-- A cause is present. -/
def alertPresent (a : Option Alert) : Bool := a.isSome

/-- The cause is POST. -/
def alertIsPost (a : Option Alert) : Bool := a == some .post

/-- Eight bits, one for each context, context 0 lowest. -/
def contextBits (f : Option Alert → Bool) (s : State) : BitVec 8 :=
  BitVec.ofBool (f (getTenant s 6).cu.alert) ++ BitVec.ofBool (f (getTenant s 5).cu.alert) ++
    BitVec.ofBool (f (getTenant s 4).cu.alert) ++ BitVec.ofBool (f (getTenant s 3).cu.alert) ++
    BitVec.ofBool (f (getTenant s 2).cu.alert) ++ BitVec.ofBool (f (getTenant s 1).cu.alert) ++
    BitVec.ofBool (f (getTenant s 0).cu.alert) ++ BitVec.ofBool (f s.control.cu.alert)

/-- The alert word (R152): bit `k` for a cause of context `k`, bit `8 + k` when that cause is POST. -/
def alertWord (s : State) : Word := (0 : BitVec 16) ++ contextBits alertIsPost s ++ contextBits alertPresent s

/-- The context whose index words stand at `0x20 + 8 k`. -/
def ctxOfNumber : Nat → Ctx
  | 1 => .tenant 0
  | 2 => .tenant 1
  | 3 => .tenant 2
  | 4 => .tenant 3
  | 5 => .tenant 4
  | 6 => .tenant 5
  | 7 => .tenant 6
  | _ => .control

/-- The producer index of a context (R2). -/
def producerOf (s : State) : Ctx → Index
  | .control => s.control.producer
  | .tenant k => (getTenant s k).producer

/-- The consumer index of a context (R2). -/
def consumerOf (s : State) : Ctx → Index
  | .control => s.control.cu.consumer
  | .tenant k => (getTenant s k).cu.consumer

/-- Answer of a T-port read: an error response, or OK with a word. -/
inductive TRead where
  | error
  | data (w : Word)
  deriving DecidableEq, Repr

/-- A read of the register window (R2, R152, R158, R181, R182): it is taken in every engine state and changes nothing.
The fields stand frozen while RESETTING, so the frozen values are read. -/
def readRegister (s : State) (offset : BitVec 8) (size : Nat) : TRead :=
  if s.rstAsserted || !accessAligned offset size then .error
  else
    let o := offset.toNat
    if o = 0x00 then .data Config.identification
    else if o = 0x04 then .data (engineWord s)
    else if o = 0x08 then .data (baseLowWord s)
    else if o = 0x0C then .data (baseHighWord s)
    else if o = 0x10 then .data (alertWord s)
    else if 0x20 ≤ o ∧ o < 0x60 then
      if o % 8 = 0 then .data ((producerOf s (ctxOfNumber ((o - 0x20) / 8))).setWidth 32)
      else .data ((consumerOf s (ctxOfNumber ((o - 0x20) / 8))).setWidth 32)
    else .data 0

end Sys2Proof.Machine
end

