-- ==== Sys2Proof/Decode.lean ====
section
/-! DEFINITION. The words that spell commands. The table gives no row any bits, so `decodeTableWord` reads none
(log 13). What the spec does encode is the T-port access: an offset, a size and a written word; `decodeTPortWrite` reads
the command such a write is, and `encodeTPortWrite` gives the write of a T-port command (section 11.5). -/

namespace Sys2Proof

/-- No row of the table has bits, so no word spells a command. -/
def decodeTableWord (_nbits _w : Nat) : Option Instr := none

/-- The command a write of the engine word is (R159): SOFT_RESET wins over ENABLE. -/
def decodeEngineWrite (w : Word) : Instr :=
  if engineSoftResetBit w then .softReset w else if engineEnableBit w then .enable w else .sizeCodeStore w

/-- The command a T-port write is, by its offset and size (R181, section 11.5). -/
def decodeTPortWrite (offset : BitVec 8) (size : Nat) (w : Word) : Instr :=
  if accessAligned offset size then
    let o := offset.toNat
    if o = 0x04 then decodeEngineWrite w
    else if o = 0x08 then .controlRingBaseWrite .low w
    else if o = 0x0C then .controlRingBaseWrite .high w
    else if o = 0x10 then .alertWordWrite w
    else if 0x20 ≤ o ∧ o < 0x60 then
      if o % 8 = 0 then .producerIndexWrite (Machine.ctxOfNumber ((o - 0x20) / 8)) w
      else .consumerIndexWrite (Machine.ctxOfNumber ((o - 0x20) / 8)) w
    else .registerWriteOther offset w
  else .tPortBadAccess true offset size

/-- The context number of a context. -/
def ctxNumber : Ctx → Nat
  | .control => 0
  | .tenant k => k.val + 1

/-- Offset, size and word of the write that a T-port command is; none for every other command. -/
def encodeTPortWrite : Instr → Option (BitVec 8 × Nat × Word)
  | .producerIndexWrite c w => some (BitVec.ofNat 8 (0x20 + 8 * ctxNumber c), 4, w)
  | .consumerIndexWrite c w => some (BitVec.ofNat 8 (0x24 + 8 * ctxNumber c), 4, w)
  | .alertWordWrite w => some (0x10, 4, w)
  | .enable w => some (0x04, 4, w)
  | .softReset w => some (0x04, 4, w)
  | .sizeCodeStore w => some (0x04, 4, w)
  | .controlRingBaseWrite .low w => some (0x08, 4, w)
  | .controlRingBaseWrite .high w => some (0x0C, 4, w)
  | .registerWriteOther offset w => some (offset, 4, w)
  | _ => none

end Sys2Proof
end

