-- ==== Sys2Proof/Machine/Grant.lean ====
section
/-! DEFINITION. The grant arbiter, and what the transfer unit does with a record at its first grant: the checks of each
kind, the zero-element records, and the start of a data record (R39 to R44, R58, R59, R67 to R79, R81, R82, R96). -/

namespace Sys2Proof.Machine

/-! ## The arbiter (R80 to R82) -/

/-- The tenants in the order the arbiter considers them: from the rotation pointer upward, 7 followed by 1. -/
def rotationOrder (p : TenantId) : List TenantId := tenantIds.map fun i => p + i

/-- The tenant the arbiter picks (R81). -/
def nextGrant (s : State) : Option TenantId := (rotationOrder s.rotation).find? fun k => (getTenant s k).state == .ready

/-- The plan with which a record that has a progress record is continued (R96). -/
def continuedPlan (t : Tenant) : Option Plan :=
  match t.progress, t.current with
  | some p, some ⟨_, .record r⟩ => planOf t r (p.cursorAtStart.getD 0)
  | _, _ => none

/-- The transfer unit as a grant of `t` leaves it (R82, R88, R96): with a progress record it continues from elements
done; without one the checks of the record's kind are still to be made (log 2). -/
def grantedUnit (k : TenantId) (t : Tenant) : TransferUnit :=
  { ({} : TransferUnit) with
    phase := .issuing, granted := some k, plan := continuedPlan t,
    nextOrd := match t.progress with | some p => p.done | none => 0,
    done := match t.progress with | some p => p.done | none => 0,
    wraps := match t.progress with | some p => p.wraps | none => 0,
    extra := match t.progress with | some p => p.extra | none => 0,
    sliceSize := t.weight * Config.sliceUnit }

/-- The tenant as a grant leaves it: RUNNING, the faulting address absent (R13). -/
def grantedTenant (t : Tenant) : Tenant :=
  { t with state := .running, progress := t.progress.map fun p => { p with faultAddr := none } }

/-- The context table takes the grant of tenant `k`: RUNNING, the transfer unit lent, the rotation pointer moved past it
(R81, R82). -/
def takeGrant (s : State) (k : TenantId) : State :=
  let t := getTenant s k
  { setTenant s k (grantedTenant t) with tu := grantedUnit k t, rotation := k + 1, grantInProgress := none }

/-- The arbiter, with no grant in progress, sends a request for the tenant it picks from the READY set (R81); whether the
context table takes it in this step or it stays in progress is a free value (log 28). -/
def sendGrant (s : State) : State :=
  match nextGrant s with
  | none => s
  | some k =>
    let sent := { s with draws := s.draws + 1 }
    if Config.grantDelayed s.draws then { sent with grantInProgress := some k } else takeGrant sent k

/-- GRANT (R81, R82): a request in progress reaches the context table, which takes it for a tenant found READY and drops it
for any other (R1), the arbiter then picking again; with none in progress the arbiter sends one. -/
def execGrant (s : State) : Host.Outcome State Fault Refusal :=
  .next (if serving s = true ∧ s.tu.phase = .free then
    match s.grantInProgress with
    | none => sendGrant s
    | some k =>
      if (getTenant s k).state = .ready then takeGrant s k else sendGrant { s with grantInProgress := none }
  else s)

/-! ## The first grant of a record -/

/-- The granted record when it is of this kind and its checks are still to be made (R58). -/
def freshGrant (s : State) (kd : Kind) : Option (TenantId × Record) :=
  if serving s = true ∧ s.tu.phase = .issuing ∧ s.tu.plan = none then
    match s.tu.granted with
    | none => none
    | some k =>
      let t := getTenant s k
      match t.current with
      | some ⟨_, .record r⟩ =>
        if t.state = .running ∧ t.progress = none ∧ kindOf r = some kd then some (k, r) else none
      | _ => none
  else none

/-- The record ends within its grant: the tenant's new context record, the unit FREE, the end of the run reported
(R10, R11, R85). -/
def endGrant (s : State) (k : TenantId) (t : Tenant) : State := endOfRun { setTenant s k t with tu := {} } k

/-- A record refused by its checks (R59). -/
def refuseGrant (s : State) (k : TenantId) (reason : Reason) : State :=
  endGrant s k (refuseRecord k (getTenant s k) reason)

/-- A zero-element record that ends OK, the tenant's tables already written: `aux` as given (R40, R44, R78, R79). -/
def finishZeroElement (s : State) (k : TenantId) (t : Tenant) (aux : Word) : State :=
  endGrant s k (enterPosting t (tenantCompletion k t .ok .none false 0 0 0 (windowCursor t) aux))

/-- A data record whose checks pass begins taking up elements (R82). -/
def startData (s : State) (p : Plan) : State := { s with tu := { s.tu with plan := some p } }

/-! ## SURFACE (R39 to R41) -/

def surfaceOf (r : Record) : Surface :=
  { base := (wordAt r 12).toNat, pitch := halfAt r 16, width := halfAt r 18, height := halfAt r 20,
    size := byteAt r 9 }

/-- The checks of R39 on the fields of the surface. -/
def surfaceCheck (f : Surface) : Option Reason :=
  if !sizeValid f.size || f.width == 0 || decide (4096 < f.width) || f.height == 0 || decide (4096 < f.height) ||
      decide (f.pitch < f.size * f.width) || decide (65532 < f.pitch) then some .badField
  else if f.base % f.size ≠ 0 ∨ f.pitch % f.size ≠ 0 then some .align
  else if Config.logicalBytes < f.base + (f.height - 1) * f.pitch + f.width * f.size then some .notFit
  else none

/-- The slot is written, and a window on it is closed (R40, R41). -/
def defineSurface (t : Tenant) (slot : Fin 4) (f : Surface) : Tenant :=
  { t with surfaces := slotSet t.surfaces slot f,
           window := match t.window with
             | some w => if w.slot = slot then none else some w
             | none => none }

/-- SURFACE (R39, R40). -/
def execSurface (s : State) : Host.Outcome State Fault Refusal :=
  .next (match freshGrant s .surface with
    | none => s
    | some (k, r) =>
      match slotOfNumber (byteAt r 8) with
      | none => refuseGrant s k .badField
      | some slot =>
        match surfaceCheck (surfaceOf r) with
        | some reason => refuseGrant s k reason
        | none => finishZeroElement s k (defineSurface (getTenant s k) slot (surfaceOf r)) 0)

/-! ## WINDOW (R43, R44) -/

/-- The window a WINDOW record describes, when its coded fields and corners pass the checks of order 1 (R43). -/
def windowOf (r : Record) : Option Window :=
  match slotOfNumber (byteAt r 8), orderOfCode (byteAt r 9), writePolicyOfCode (byteAt r 11),
      readPolicyOfCode (byteAt r 12) with
  | some slot, some order, some wp, some rp =>
    if halfAt r 20 < halfAt r 16 ∨ halfAt r 22 < halfAt r 18 then none
    else some { slot := slot, x0 := halfAt r 16, y0 := halfAt r 18, x1 := halfAt r 20, y1 := halfAt r 22,
                order := order, xrev := flagAt r 10 0, yrev := flagAt r 10 1, writePolicy := wp, readPolicy := rp,
                cursor := 0, held := none }
  | _, _, _, _ => none

/-- WINDOW (R43, R44). -/
def execWindow (s : State) : Host.Outcome State Fault Refusal :=
  .next (match freshGrant s .window with
    | none => s
    | some (k, r) =>
      match windowOf r with
      | none => refuseGrant s k .badField
      | some w =>
        match slotGet (getTenant s k).surfaces w.slot with
        | none => refuseGrant s k .noSurface
        | some f =>
          if f.width ≤ w.x1 ∨ f.height ≤ w.y1 then refuseGrant s k .notFit
          else finishZeroElement s k { getTenant s k with window := some w } 0)

/-! ## PUT and GET (R67 to R71) -/

/-- The checks of R68 and R71, which differ in which side the window's surface is: `widenSizes` gives the source and
destination sizes from the record's and the surface's. -/
def linearCheck (t : Tenant) (r : Record) (put : Bool) : Option Reason :=
  let count := (wordAt r 16).toNat
  let size := byteAt r 8
  if count = 0 ∨ 16777215 < count ∨ sizeValid size = false then some .badField
  else match windowSurface t with
    | none => some .noWindow
    | some (_, f) =>
      if modeAdmitted (byteAt r 9) (if put then size else f.size) (if put then f.size else size) = false then
        some .badField
      else if (wordAt r 12).toNat % size ≠ 0 then some .align
      else if Config.logicalBytes < (wordAt r 12).toNat + count * size then some .notFit
      else none

/-- PUT (R67 to R69): a PUT under CLIP whose cursor stands at the area finishes within its first grant. -/
def execPut (s : State) : Host.Outcome State Fault Refusal :=
  .next (match freshGrant s .put with
    | none => s
    | some (k, r) =>
      let t := getTenant s k
      match linearCheck t r true, windowSurface t with
      | some reason, _ => refuseGrant s k reason
      | none, none => refuseGrant s k .noWindow
      | none, some (w, f) =>
        let p := planPut r w f w.cursor
        if takeUps p = 0 then
          endGrant s k (enterPosting t (tenantCompletion k t .ok .none false 0 (excess p) 0 (windowCursor t) 0))
        else startData s p)

/-- GET (R70, R71). -/
def execGet (s : State) : Host.Outcome State Fault Refusal :=
  .next (match freshGrant s .get with
    | none => s
    | some (k, r) =>
      let t := getTenant s k
      match linearCheck t r false, windowSurface t with
      | some reason, _ => refuseGrant s k reason
      | none, none => refuseGrant s k .noWindow
      | none, some (w, f) => startData s (planGet r w f w.cursor))

/-! ## COPY and FILL (R73, R74, R76) -/

/-- Width or height outside 1 to 4096. -/
def sidesBad (w h : Nat) : Bool := w == 0 || decide (4096 < w) || h == 0 || decide (4096 < h)

/-- A rectangle leaves its surface. -/
def rectOutside (f : Surface) (x y w h : Nat) : Bool := decide (f.width < x + w) || decide (f.height < y + h)

/-- COPY (R73, R74). -/
def execCopy (s : State) : Host.Outcome State Fault Refusal :=
  .next (match freshGrant s .copy with
    | none => s
    | some (k, r) =>
      let t := getTenant s k
      let w := halfAt r 24
      let h := halfAt r 26
      match slotOfNumber (byteAt r 8), slotOfNumber (byteAt r 9), orderOfCode (byteAt r 10) with
      | some a, some b, some order =>
        if sidesBad w h then refuseGrant s k .badField
        else match slotGet t.surfaces a, slotGet t.surfaces b with
          | some src, some dst =>
            if modeAdmitted (byteAt r 12) src.size dst.size = false then refuseGrant s k .badField
            else if rectOutside src (halfAt r 16) (halfAt r 18) w h || rectOutside dst (halfAt r 20) (halfAt r 22) w h then
              refuseGrant s k .notFit
            else startData s (planCopy r src dst order)
          | _, _ => refuseGrant s k .noSurface
      | _, _, _ => refuseGrant s k .badField)

/-- FILL (R76). -/
def execFill (s : State) : Host.Outcome State Fault Refusal :=
  .next (match freshGrant s .fill with
    | none => s
    | some (k, r) =>
      let t := getTenant s k
      match slotOfNumber (byteAt r 8) with
      | none => refuseGrant s k .badField
      | some a =>
        if sidesBad (halfAt r 16) (halfAt r 18) then refuseGrant s k .badField
        else match slotGet t.surfaces a with
          | none => refuseGrant s k .noSurface
          | some f =>
            if rectOutside f (halfAt r 12) (halfAt r 14) (halfAt r 16) (halfAt r 18) then refuseGrant s k .notFit
            else startData s (planFill r f))

/-! ## MARK and PROBE (R78, R79) -/

/-- MARK (R78). -/
def execMark (s : State) : Host.Outcome State Fault Refusal :=
  .next (match freshGrant s .mark with
    | none => s
    | some (k, _) => finishZeroElement s k (getTenant s k) 0)

/-- PROBE (R79, R113): the entry as stored, whatever its flags hold. -/
def execProbe (s : State) : Host.Outcome State Fault Refusal :=
  .next (match freshGrant s .probe with
    | none => s
    | some (k, r) =>
      let t := getTenant s k
      let a := (wordAt r 8).toNat
      if Config.logicalBytes ≤ a then refuseGrant s k .badField
      else finishZeroElement s k t (wordOfEntry (segGet t.segment (a / Config.pageBytes))))

end Sys2Proof.Machine
end

