-- ==== Sys2Proof/Machine/Elements.lean ====
section
/-! DEFINITION. The element pipeline of the transfer unit: take-up, holds, answers, faults and the four drains (R49 to
R56, R66, R83 to R97, R183, R184). -/

namespace Sys2Proof.Machine

/-! ## Holds (R66, R184) -/

/-- An outstanding element of lower ordinal holds a transaction at `a` of `n` bytes: its unanswered read holds a write,
its unanswered write, issued or to come, holds a read or a write. A write that is still to come lies where its
destination translates to; one whose translation would fault holds nothing. -/
def elemBlocks (seg : Segment) (p : Plan) (e : Elem) (isWrite : Bool) (a : Phys) (n : Nat) : Bool :=
  let readBlocks := isWrite && overlaps e.readAddr p.srcSize a n
  match e.stage with
  | .writeHeld | .writeIssued => overlaps e.writeAddr p.dstSize a n
  | .readHeld | .readIssued =>
    readBlocks || (!e.fill && (match translateAccess seg (dstAddr p e.ord) .write with
      | .phys b => overlaps b p.dstSize a n
      | .fault _ => false))

/-- A transaction of ordinal `ord` is held (R184). -/
def blocked (seg : Segment) (p : Plan) (out : List Elem) (ord : Nat) (isWrite : Bool) (a : Phys) (n : Nat) : Bool :=
  out.any fun e => decide (e.ord < ord) && elemBlocks seg p e isWrite a n

/-! ## The outstanding set -/

/-- The element an answer or an issue names. -/
def refersTo (r : ElemRef) (e : Elem) : Bool :=
  match r with
  | .element o => !e.fill && e.ord == o
  | .fill => e.fill

/-- The named element, if it stands at one of these stages. -/
def findElem (out : List Elem) (r : ElemRef) (stages : List Stage) : Option Elem :=
  out.find? fun e => refersTo r e && stages.contains e.stage

/-- The outstanding set without the named element. -/
def withoutElem (out : List Elem) (r : ElemRef) : List Elem := out.filter fun e => !refersTo r e

/-- The outstanding set with the named element replaced, its place kept. -/
def replaceElem (out : List Elem) (r : ElemRef) (e' : Elem) : List Elem :=
  out.map fun e => if refersTo r e then e' else e

/-- The unit has stopped issuing for this ordinal: it lies above the recorded faulting ordinal of a HALT drain (R92), or
the drain is an ABORT (R97). -/
def stoppedFor (u : TransferUnit) (ord : Nat) : Bool :=
  match u.phase with
  | .draining .abort => true
  | .draining .halt => (match u.faulting with | some f => decide (f.ord < ord) | none => false)
  | _ => false

/-- The lower of the recorded faulting element and a new one (R92). -/
def lowerFault (old : Option Faulting) (new : Faulting) : Faulting :=
  match old with
  | some f => if new.ord < f.ord then new else f
  | none => new

/-- Records a faulting ordinal (R90 to R92, R94): the drain becomes a HALT, and every element above it with no transaction
in flight ends in this step (R183). In an ABORT drain nothing is recorded. -/
def recordFault (u : TransferUnit) (f : Faulting) : TransferUnit :=
  match u.phase with
  | .draining .abort => u
  | _ =>
    let g := lowerFault (if u.phase = .draining .halt then u.faulting else none) f
    { u with phase := .draining .halt, faulting := some g,
             outstanding := u.outstanding.filter fun e => decide (e.ord < g.ord) || inFlightStage e.stage }

/-! ## The acknowledged prefix (R50, R56, R88) -/

/-- Inserts an ended ordinal in rising order. -/
def insertOrd (o : Nat) : List Nat → List Nat
  | [] => [o]
  | x :: xs => if o ≤ x then o :: x :: xs else x :: insertOrd o xs

/-- The live counts after element `j` joins the prefix: a wrap at window ordinal area minus 1 under WRAP, saturating; an
overrun element under ZERO. -/
def countElement (p : Plan) (j : Nat) (u : TransferUnit) : TransferUnit :=
  { u with done := j + 1,
           wraps := if p.policy = .wrap ∧ isLast p j = true then min Config.wrapsMax (u.wraps + 1) else u.wraps,
           extra := if p.policy = .zero ∧ inWindow p j = false then u.extra + 1 else u.extra }

/-- Advances the prefix past every ended ordinal that follows it. -/
def advancePrefix (p : Plan) : List Nat → TransferUnit → TransferUnit
  | [], u => { u with ended := [] }
  | x :: xs, u => if x = u.done then advancePrefix p xs (countElement p x u) else { u with ended := x :: xs }

/-! ## The held value and the cursor (R49, R54) -/

/-- Sets the window's held value, in the surface's element size. -/
def setHeld (t : Tenant) (v : Option Word) : Tenant :=
  { t with window := t.window.map fun w => { w with held := v } }

/-- The window with its cursor set. -/
def setCursor (t : Tenant) (c : Nat) : Tenant :=
  { t with window := t.window.map fun w => { w with cursor := c } }

/-- The held value of the tenant's window. -/
def heldValue (t : Tenant) : Option Word :=
  match t.window with
  | some w => w.held
  | none => none

/-- The cursor advance at an acknowledged destination write of element `j` (R49). -/
def advanceCursor (p : Plan) (j : Nat) (t : Tenant) : Tenant :=
  if (p.kind = .put ∨ p.kind = .get) ∧ inWindow p j = true then
    { t with window := t.window.map fun w => { w with cursor := cursorStep (p.policy == .wrap) p.area w.cursor } }
  else t

/-- The effect of issuing element `j`'s write: a PUT's write to window ordinal area minus 1 clears the held value. -/
def writeIssuedEffect (p : Plan) (j : Nat) (t : Tenant) : Tenant :=
  if p.kind = .put ∧ isLast p j = true then setHeld t none else t

/-- The granted tenant and the plan of a record whose checks have passed. -/
def runningPlan (s : State) : Option (TenantId × Plan) :=
  match s.tu.granted, s.tu.plan with
  | some k, some p => some (k, p)
  | _, _ => none

/-! ## The counting of a take-up (R83, R85) -/

/-- What a take-up of the last or the slice's last element decides (R83, R85). -/
def afterTakeUp (s : State) (k : TenantId) (p : Plan) (u : TransferUnit) : TransferUnit :=
  if takeUps p ≤ u.nextOrd then { u with phase := .draining .finish }
  else if u.sliceSize ≤ u.sliceCounter then
    if (readySet s).isEmpty then
      { u with sliceCounter := 0, sliceSize := (getTenant s k).weight * Config.sliceUnit }
    else { u with phase := .draining .preempt }
  else u

/-- The element at the next ordinal takes a place, its first transaction issued or held. -/
def placeElem (s : State) (k : TenantId) (p : Plan) (e : Elem) : State :=
  let u := { s.tu with outstanding := s.tu.outstanding ++ [e], nextOrd := s.tu.nextOrd + 1,
                       sliceCounter := s.tu.sliceCounter + 1 }
  { s with tu := afterTakeUp s k p u }

/-! ## The end of a hold (R66, R86, R184) -/

/-- A held transaction of an element that the unit still issues for, which nothing of lower ordinal holds any more. -/
def holdEnded (seg : Segment) (p : Plan) (u : TransferUnit) (e : Elem) : Bool :=
  !stoppedFor u e.ord &&
    match e.stage with
    | .readHeld => !blocked seg p u.outstanding e.ord false e.readAddr p.srcSize
    | .writeHeld => !blocked seg p u.outstanding e.ord true e.writeAddr p.dstSize
    | .readIssued | .writeIssued => false

/-- The element with its held transaction issued. -/
def issueHeld (e : Elem) : Elem :=
  match e.stage with
  | .readHeld => { e with stage := .readIssued }
  | .writeHeld => { e with stage := .writeIssued }
  | .readIssued | .writeIssued => e

/-- Issues every held transaction whose hold has ended, in this step (R86). Whether a transaction is held does not depend
on which of the others are issued, so all are issued at once; a PUT's write to the window's last element clears the held
value (R54). -/
def releaseHeld (k : TenantId) (p : Plan) (s : State) : State :=
  let t := getTenant s k
  let ended := holdEnded t.segment p s.tu
  let clears := p.kind == .put &&
    s.tu.outstanding.any fun e => ended e && e.stage == .writeHeld && isLast p e.ord
  { setTenant s k (if clears then setHeld t none else t) with
    tu := { s.tu with outstanding := s.tu.outstanding.map fun e => if ended e then issueHeld e else e } }

/-! ## Take-up (R55, R83, R86) -/

/-- Takes up an element whose first transaction is a read at logical address `srcAddr`. -/
def takeUpRead (s : State) (k : TenantId) (p : Plan) : State :=
  let t := getTenant s k
  let j := s.tu.nextOrd
  match translateAccess t.segment (srcAddr p j) .read with
  | .fault st => { s with tu := recordFault s.tu { ord := j, addr := srcAddr p j, status := st, reason := .none } }
  | .phys a =>
    let held := blocked t.segment p s.tu.outstanding j false a p.srcSize
    placeElem s k p { ord := j, fill := false, stage := if held then .readHeld else .readIssued, readAddr := a,
                      writeAddr := 0, value := 0 }

/-- Takes up an element whose first and only transaction is the write of `v`. -/
def takeUpWrite (s : State) (k : TenantId) (p : Plan) (v : Word) : State :=
  let t := getTenant s k
  let j := s.tu.nextOrd
  match translateAccess t.segment (dstAddr p j) .write with
  | .fault st => { s with tu := recordFault s.tu { ord := j, addr := dstAddr p j, status := st, reason := .none } }
  | .phys a =>
    let held := blocked t.segment p s.tu.outstanding j true a p.dstSize
    placeElem s k p { ord := j, fill := false, stage := if held then .writeHeld else .writeIssued, readAddr := 0,
                      writeAddr := a, value := v }

/-- Issues the fill read: it takes a place at the ordinal of the first overrun element, and neither the next ordinal nor
the slice counter moves (R55, R86). -/
def issueFillRead (s : State) (k : TenantId) (p : Plan) : State :=
  let t := getTenant s k
  let j := s.tu.nextOrd
  match translateAccess t.segment (fillAddr p) .read with
  | .fault st => { s with tu := recordFault s.tu { ord := j, addr := fillAddr p, status := st, reason := .none } }
  | .phys a =>
    let held := blocked t.segment p s.tu.outstanding j false a p.srcSize
    let e : Elem := { ord := j, fill := true, stage := if held then .readHeld else .readIssued, readAddr := a,
                      writeAddr := 0, value := 0 }
    { s with tu := { s.tu with outstanding := s.tu.outstanding ++ [e] } }

/-- The fill read, or this record's read of window ordinal area minus 1, is not answered yet (R55, R86). -/
def lastReadOutstanding (p : Plan) (out : List Elem) : Bool :=
  out.any fun e =>
    (e.stage == .readHeld || e.stage == .readIssued) && (e.fill || (elementReads p e.ord && isLast p e.ord))

/-- An overrun element under HOLD: it is held back while the record's read of the window's last element, or the fill
read, is outstanding (R66, R86); once it is reached, it is taken up with the held value, or, with none, the fill read is
issued (R55, log 6). -/
def takeUpHold (s : State) (k : TenantId) (p : Plan) : State :=
  if lastReadOutstanding p s.tu.outstanding then s
  else match heldValue (getTenant s k) with
    | some h => takeUpWrite s k p (elementValue p h)
    | none => issueFillRead s k p

/-- TAKE_UP (R86). -/
def execTakeUp (s : State) : Host.Outcome State Fault Refusal :=
  .next (match runningPlan s with
    | none => s
    | some (k, p) =>
      if serving s = true ∧ s.tu.phase = .issuing ∧ s.tu.outstanding.length < Config.places ∧
          s.tu.nextOrd < takeUps p then
        if elementReads p s.tu.nextOrd then takeUpRead s k p
        else match p.kind, p.policy with
          | .fill, _ => takeUpWrite s k p (cutTo p.dstSize p.value)
          | _, .hold => takeUpHold s k p
          | _, _ => takeUpWrite s k p 0
      else s)

/-! ## Answers (R87, R88, R91, R97) -/

/-- While RESETTING an element answer is dropped (R98). -/
def dropElement (s : State) (r : ElemRef) : State :=
  endResetIfDrained { s with tu := { s.tu with outstanding := withoutElem s.tu.outstanding r } }

/-- An acknowledged read of the window's last element by a GET, the fill read included, sets the held value (R54). -/
def readSetsHeld (p : Plan) (e : Elem) : Bool := p.kind == .get && (e.fill || isLast p e.ord)

/-- The write of an element whose read has been acknowledged is translated and issued, or held, or faults (R87, R90). -/
def beginWrite (s : State) (k : TenantId) (p : Plan) (r : ElemRef) (e : Elem) (v : Word) : State :=
  let t := getTenant s k
  match translateAccess t.segment (dstAddr p e.ord) .write with
  | .fault st =>
    let u := { s.tu with outstanding := withoutElem s.tu.outstanding r }
    { s with tu := recordFault u { ord := e.ord, addr := dstAddr p e.ord, status := st, reason := .none } }
  | .phys a =>
    let held : Elem := { e with stage := .writeHeld, writeAddr := a, value := v }
    if blocked t.segment p s.tu.outstanding e.ord true a p.dstSize then
      { s with tu := { s.tu with outstanding := replaceElem s.tu.outstanding r held } }
    else
      { setTenant s k (writeIssuedEffect p e.ord t) with
        tu := { s.tu with outstanding := replaceElem s.tu.outstanding r { held with stage := .writeIssued } } }

/-- An acknowledged read (R54, R87, R92, R97). -/
def readAcknowledged (s : State) (k : TenantId) (p : Plan) (r : ElemRef) (e : Elem) (v : Word) : State :=
  let s' := if readSetsHeld p e then setTenant s k (setHeld (getTenant s k) (some (cutTo p.srcSize v))) else s
  if e.fill || stoppedFor s.tu e.ord then
    { s' with tu := { s'.tu with outstanding := withoutElem s'.tu.outstanding r } }
  else beginWrite s' k p r e (elementValue p v)

/-- ELEMENT_READ_ACK (R87), with the holds it ends (R86). -/
def execElementReadAck (r : ElemRef) (value : Word) (s : State) : Host.Outcome State Fault Refusal :=
  .next (match runningPlan s, findElem s.tu.outstanding r [.readIssued] with
    | some (k, p), some e =>
      if s.engine = .resetting then dropElement s r else releaseHeld k p (readAcknowledged s k p r e value)
    | _, _ => s)

/-- An acknowledged write: the element ends without fault, its place is freed, the cursor advances, and the prefix advances
in every phase (R49, R88, R97). -/
def writeAcknowledged (s : State) (k : TenantId) (p : Plan) (ord : Nat) : State :=
  let u := { s.tu with outstanding := withoutElem s.tu.outstanding (.element ord) }
  { setTenant s k (advanceCursor p ord (getTenant s k)) with
    tu := advancePrefix p (insertOrd ord u.ended) u }

/-- ELEMENT_WRITE_ACK (R88), with the holds it ends (R86). -/
def execElementWriteAck (ord : Nat) (s : State) : Host.Outcome State Fault Refusal :=
  .next (match runningPlan s, findElem s.tu.outstanding (.element ord) [.writeIssued] with
    | some (k, p), some _ =>
      if s.engine = .resetting then dropElement s (.element ord) else releaseHeld k p (writeAcknowledged s k p ord)
    | _, _ => s)

/-- The faulting element an error response makes: the address is that of the transaction answered (R91, R55). -/
def errorFault (p : Plan) (e : Elem) : Faulting :=
  if e.stage = .readIssued then
    { ord := e.ord, addr := if e.fill then fillAddr p else srcAddr p e.ord, status := .busError, reason := .read }
  else { ord := e.ord, addr := dstAddr p e.ord, status := .busError, reason := .write }

/-- ELEMENT_ERROR_RESPONSE (R91), with the holds it ends (R86); ignored in an ABORT drain (R97). The elements that a
faulted one held lie above it and end with the fault (R183). -/
def execElementErrorResponse (r : ElemRef) (s : State) : Host.Outcome State Fault Refusal :=
  .next (match runningPlan s, findElem s.tu.outstanding r [.readIssued, .writeIssued] with
    | some (k, p), some e =>
      if s.engine = .resetting then dropElement s r
      else
        let u := { s.tu with outstanding := withoutElem s.tu.outstanding r }
        releaseHeld k p { s with tu := recordFault u (errorFault p e) }
    | _, _ => s)

/-! ## Issue of a held transaction (R86, R184) -/

/-- The outstanding elements of lower ordinal that hold the transaction of `e`. -/
def holders (seg : Segment) (p : Plan) (out : List Elem) (e : Elem) : List Elem :=
  match e.stage with
  | .readHeld => out.filter fun x => decide (x.ord < e.ord) && elemBlocks seg p x false e.readAddr p.srcSize
  | .writeHeld => out.filter fun x => decide (x.ord < e.ord) && elemBlocks seg p x true e.writeAddr p.dstSize
  | .readIssued | .writeIssued => []

/-- HELD_TRANSACTION_ISSUE (R184): a held transaction that nothing holds is issued. The part issues it in the step that
ends its hold; where one write in flight alone holds it, the command is that write's acknowledgement (log 8). -/
def execHeldTransactionIssue (r : ElemRef) (s : State) : Host.Outcome State Fault Refusal :=
  .next (match runningPlan s, findElem s.tu.outstanding r [.readHeld, .writeHeld] with
    | some (k, p), some e =>
      if serving s = false ∨ stoppedFor s.tu e.ord = true then s
      else match holders (getTenant s k).segment p s.tu.outstanding e with
        | [] => releaseHeld k p s
        | [x] => if x.stage = .writeIssued then releaseHeld k p (writeAcknowledged s k p x.ord) else s
        | _ => s
    | _, _ => s)

/-! ## Drains (R89, R93, R95, R97) -/

/-- The granted tenant and plan when a drain of this cause is empty and the tenant is still RUNNING (R1). -/
def drained (s : State) (c : DrainCause) : Option (TenantId × Plan) :=
  match runningPlan s with
  | some (k, p) =>
    if serving s = true ∧ s.tu.phase = .draining c ∧ s.tu.outstanding = [] ∧ (getTenant s k).state = .running then
      some (k, p)
    else none
  | none => none

/-- The sequence number of the current record. -/
def currentSeq (t : Tenant) : Index :=
  match t.current with
  | some e => e.seq
  | none => 0

/-- The finish request as the context table takes it (R52, R60, R89): the terminal completion, with the excess of a PUT
under CLIP in extra, and the acknowledgement report. -/
def finishRecord (s : State) (k : TenantId) (p : Plan) : State :=
  let t := getTenant s k
  let u := s.tu
  let c := tenantCompletion k t .ok .none false u.done (u.extra + excess p) u.wraps (windowCursor t) 0
  endGrant s k { enterPosting t c with ackReport := some { seq := currentSeq t, count := u.done } }

/-- The end of a FINISH drain, when one is empty (R89). -/
def endFinishDrain (s : State) : State :=
  match drained s .finish with
  | some (k, p) => finishRecord s k p
  | none => s

/-- DRAIN_FINISH (R89). -/
def execDrainFinish (s : State) : Host.Outcome State Fault Refusal := .next (endFinishDrain s)

/-- Cursor at start as the progress record keeps it: present for PUT and GET (section 1.6, R57). -/
def startCursor (p : Plan) : Option Nat :=
  match p.kind with
  | .put | .get => some p.cs
  | .copy | .fill => none

/-- DRAIN_PREEMPT (R95): READY with stop cause PREEMPTED; the run stays open. -/
def execDrainPreempt (s : State) : Host.Outcome State Fault Refusal :=
  .next (match drained s .preempt with
    | some (k, p) =>
      let t := getTenant s k
      { setTenant s k { t with
          state := .ready,
          progress := some { cause := .preempted, done := s.tu.done, cursorAtStart := startCursor p,
                             wraps := s.tu.wraps, extra := s.tu.extra, faultAddr := none } } with tu := {} }
    | none => s)

/-- The cursor as the halt sets it, for PUT and GET (R13, R49). -/
def haltCursor (p : Plan) (n : Nat) (t : Tenant) : Tenant :=
  match p.kind with
  | .put | .get => setCursor t (cursorAdvanced p n)
  | .copy | .fill => t

/-- The halt request as the context table takes it (R12, R13, R15, R93). -/
def haltRecord (s : State) (k : TenantId) (p : Plan) (f : Faulting) (reason : HaltReason) : State :=
  let t := haltCursor p f.ord (getTenant s k)
  let c := tenantCompletion k t f.status f.reason true f.ord s.tu.extra s.tu.wraps (windowCursor t)
    (BitVec.ofNat 32 f.addr)
  endGrant s k { enterHalted t reason c with
    progress := some { cause := .halted, done := f.ord, cursorAtStart := startCursor p, wraps := s.tu.wraps,
                       extra := s.tu.extra, faultAddr := some f.addr },
    ackReport := some { seq := currentSeq t, count := f.ord } }

/-- The end of a HALT drain, when one is empty (R93). -/
def endHaltDrain (s : State) : State :=
  match drained s .halt, s.tu.faulting with
  | some (k, p), some f =>
    match haltReasonOf f.status with
    | some reason => haltRecord s k p f reason
    | none => s
  | _, _ => s

/-- DRAIN_HALT (R93). -/
def execDrainHalt (s : State) : Host.Outcome State Fault Refusal := .next (endHaltDrain s)

/-- Abort done as the context table takes it: DETACHED, the unit FREE, the DETACH completion built with the state the
check found, RUNNING (R97, R169, R170). -/
def finishAbort (s : State) (k : TenantId) : State :=
  let s' := { setTenant s k (detachTenant (getTenant s k)) with tu := {} }
  match s'.control.current with
  | some c =>
    completeControl s' c (controlCompletion c .ok .none 0 s'.control.discardCount 0 (stateCode .running))
  | none => s'

/-- ABORT_DONE (R97). -/
def execAbortDone (s : State) : Host.Outcome State Fault Refusal :=
  .next (match s.tu.granted with
    | some k =>
      if serving s = true ∧ s.tu.phase = .draining .abort ∧ s.tu.outstanding = [] ∧
          (getTenant s k).state = .detaching then finishAbort s k
      else s
    | none => s)

end Sys2Proof.Machine
end

