-- ==== Sys2Proof/Machine/Recovery.lean ====
section
/-! DEFINITION. What a RESUME does in its target's context record, by halt reason and mode (R123 to R129). -/

namespace Sys2Proof.Machine

/-- Asks the fetch unit for a REFETCH of the current record's slot: issued at once, or waiting for the read in flight
(R31, R125). -/
def beginRefetch (t : Tenant) : Tenant :=
  let t' := { t with recovery := some .refetchOutstanding }
  if t'.chan.inFlight = none then issueRefetch t' else { t' with chan := { t'.chan with refetchWaiting := true } }

/-- A TIMEOUT halt's WAIT begun afresh: tally 0 and the full timeout (R126, R136). -/
def restartWait (k : TenantId) (t : Tenant) : Tenant :=
  let t' := { t with haltReason := none, state := .waiting }
  match t'.current with
  | some ⟨_, .record r⟩ => startWait k t' r
  | _ => t'

/-- RETRY of a halted tenant, by its halt reason (R124 to R127); after a TIMEOUT the WAIT begins afresh in this step
(R126). -/
def retryHalted (k : TenantId) (t : Tenant) : Tenant :=
  match t.haltReason with
  | none => t
  | some .absent | some .noRead | some .noWrite | some .busError => { t with haltReason := none, state := .ready }
  | some .fetchError | some .invalid => beginRefetch t
  | some .timeout => restartWait k t
  | some .postError =>
    match t.cu.pending with
    | none => t
    | some c => if c.interim then { t with haltReason := haltReasonOf c.status }
                else { t with haltReason := none, state := .posting }

/-- Elements done, extra and wraps of a SKIPPED completion, by the halt reason (R128). -/
def skippedCounts (t : Tenant) : Nat × Nat × Nat :=
  match t.haltReason with
  | some .timeout => (t.tally, 0, 0)
  | some .absent | some .noRead | some .noWrite | some .busError =>
    match t.progress with
    | some p => (p.done, p.extra, p.wraps)
    | none => (0, 0, 0)
  | _ => (0, 0, 0)

/-- SKIP of a halted tenant (R128): the SKIPPED completion ends the record; a FETCH_ERROR halt clears the stop (R30). -/
def skipHalted (k : TenantId) (t : Tenant) : Tenant :=
  let n := skippedCounts t
  let c := tenantCompletion k t .skipped .none false n.1 n.2.1 n.2.2 (windowCursor t) 0
  let t' := enterPosting { t with haltReason := none } c
  if t.haltReason = some .fetchError then clearStop t' else t'

/-- The recovery step carried out at the posted report of the interim completion (R8, R123). -/
def recoverAfterPost (k : TenantId) (t : Tenant) : Tenant :=
  match t.recovery with
  | some .retryAfterPost => retryHalted k { t with recovery := none }
  | some .skipAfterPost => skipHalted k { t with recovery := none }
  | some .refetchOutstanding => t
  | none => t

/-- RESUME of a PAUSED tenant, in either mode (R129). -/
def resumePaused (t : Tenant) : Tenant := { t with drainRequested := false, state := .idle }

/-- A RESUME that has passed its checks, as its target takes it (R122, R123, R129). -/
def resumeTenant (k : TenantId) (t : Tenant) (skip : Bool) : Tenant :=
  if t.state = .paused then resumePaused t
  else if t.cu.pending.isSome ∧ t.haltReason ≠ some .postError then
    { t with recovery := some (if skip then .skipAfterPost else .retryAfterPost) }
  else if skip then skipHalted k t else retryHalted k t

end Sys2Proof.Machine
end

