-- ==== Sys2Proof/Machine/ControlUnit.lean ====
section
/-! DEFINITION. The control unit: ATTACH, DETACH, DRAIN, RESUME, SET_SERVICE, QUERY and NOTE (R122, R129, R164 to R176).
A control record is carried out when it is the current control record and has no completion yet. -/

namespace Sys2Proof.Machine

/-- A refusal by a check: elements done, extra and aux 0 (R165). -/
def refuseControl (s : State) (c : CtlRecord) (status : Status) (reason : Reason) (version : Index) : State :=
  completeControl s c (controlCompletion c status reason 0 0 version 0)

/-! ## ATTACH (R166, R167) -/

/-- Weight, threshold or holdoff out of range (R166, R173). -/
def serviceBad (weight threshold holdoff : Nat) : Bool :=
  weight == 0 || decide (8 < weight) || threshold == 0 || decide (32 < threshold) || decide (4095 < holdoff)

/-- The checks of orders 2 and 3 of R166. -/
def attachCheck (r : Record) : Option Reason :=
  if 6 < byteAt r 9 ∨ 6 < byteAt r 10 ∨ serviceBad (byteAt r 11) (byteAt r 12) (halfAt r 14) = true ∨
      2 ^ 40 ≤ longAt r 16 ∨ 2 ^ 40 ≤ longAt r 24 then some .badField
  else if longAt r 16 % 64 ≠ 0 ∨ longAt r 24 % 32 ≠ 0 then some .align
  else none

/-- The target as an ATTACH leaves it: every other field keeps its value (R167). -/
def attachTenant (r : Record) (t : Tenant) : Tenant :=
  { t with
    state := .idle,
    sqBase := BitVec.ofNat 40 (longAt r 16), sqCode := byteAt r 9,
    cqBase := BitVec.ofNat 40 (longAt r 24), cqCode := byteAt r 10,
    weight := byteAt r 11, threshold := byteAt r 12, holdoff := halfAt r 14, haltOnInvalid := flagAt r 13 0 }

/-- ATTACH (R166, R167). -/
def execAttach (s : State) : Host.Outcome State Fault Refusal :=
  .next (match currentControl s .attach with
    | none => s
    | some c =>
      match tenantOfNumber (byteAt c.data 8) with
      | none => refuseControl s c .invalid .badTarget 0
      | some k =>
        let t := getTenant s k
        match attachCheck c.data with
        | some reason => refuseControl s c .invalid reason t.mapVersion
        | none =>
          if t.state ≠ .detached then refuseControl s c .wrongState .none t.mapVersion
          else completeControl (setTenant s k (attachTenant c.data t)) c (controlCompletion c .ok .none 0 0 0 0))

/-! ## DETACH (R168 to R170) -/

/-- The transfer unit takes the abort: whatever its phase, DRAINING ABORT; elements with no transaction in flight end
(R97, R183). A faulting element that a HALT drain had recorded is cleared, a DESIGN CHOICE: R97 and section 5.2 do not say
whether it stays (log 27). -/
def beginAbort (u : TransferUnit) : TransferUnit :=
  { u with phase := .draining .abort, faulting := none,
           outstanding := u.outstanding.filter fun e => inFlightStage e.stage }

/-- DETACH of a RUNNING target: DETACHING and waiting for the abort; with nothing outstanding, abort done is sent and
taken in the same step (R97, R169). -/
def detachRunning (s : State) (c : CtlRecord) (k : TenantId) : State :=
  let t := getTenant s k
  let s1 := waitOnTarget (setTenant s k (beginDetaching t)) c
  let s2 := { s1 with control := { s1.control with discardCount := discardCountOf t }, tu := beginAbort s1.tu }
  if s2.tu.outstanding = [] then finishAbort s2 k else s2

/-- DETACH of a target in any other attached state, in the step of the check (R168, R170). -/
def detachAtOnce (s : State) (c : CtlRecord) (k : TenantId) : State :=
  let t := getTenant s k
  completeControl (setTenant s k (detachTenant t)) c
    (controlCompletion c .ok .none 0 (discardCountOf t) 0 (stateCode t.state))

/-- DETACH (R168). A control record never finds its target DETACHING (section 10.2.1). -/
def execDetach (s : State) : Host.Outcome State Fault Refusal :=
  .next (match currentControl s .detach with
    | none => s
    | some c =>
      match tenantOfNumber (byteAt c.data 8) with
      | none => refuseControl s c .invalid .badTarget 0
      | some k =>
        match (getTenant s k).state with
        | .detached =>
          completeControl s c (controlCompletion c .wrongState .none 0 0 (getTenant s k).mapVersion
            (stateCode .detached))
        | .running => detachRunning s c k
        | .detaching => s
        | .idle | .ready | .waiting | .posting | .halted | .paused => detachAtOnce s c k)

/-! ## DRAIN (R171, R172) -/

/-- The completion of a DRAIN that ends with its target in PAUSED or HALTED (R172). -/
def drainCompletion (c : CtlRecord) (t : Tenant) : Completion :=
  controlCompletion c (if t.state = .halted then .haltedTarget else .ok) .none 0 0 t.mapVersion (stateCode t.state)

/-- The target with the drain-requested flag set; an IDLE target with no read in flight enters PAUSED (R171). -/
def drainTenant (t : Tenant) : Tenant :=
  if t.state = .idle ∧ t.chan.inFlight = none then { t with drainRequested := true, state := .paused }
  else { t with drainRequested := true }

/-- DRAIN (R171). -/
def execDrain (s : State) : Host.Outcome State Fault Refusal :=
  .next (match currentControl s .drain with
    | none => s
    | some c =>
      match tenantOfNumber (byteAt c.data 8) with
      | none => refuseControl s c .invalid .badTarget 0
      | some k =>
        let t := getTenant s k
        if t.state = .detached then refuseControl s c .wrongState .none t.mapVersion
        else
          let t' := drainTenant t
          let s' := setTenant s k t'
          if t'.state = .paused ∨ t'.state = .halted then completeControl s' c (drainCompletion c t')
          else waitOnTarget s' c)

/-- DRAIN_END (R172): the target of a waiting DRAIN has entered PAUSED or HALTED. -/
def execDrainEnd (s : State) : Host.Outcome State Fault Refusal :=
  .next (match s.control.current with
    | none => s
    | some c =>
      if serving s = true ∧ c.op = .waitingTarget ∧ kindOf c.data = some .drain then
        match tenantOfNumber (byteAt c.data 8) with
        | none => s
        | some k =>
          let t := getTenant s k
          if t.state = .paused ∨ t.state = .halted then completeControl s c (drainCompletion c t) else s
      else s)

/-! ## RESUME (R122 to R129) -/

/-- RETRY and SKIP mode codes (section 11.1.3). -/
abbrev resumeRetryCode : Nat := 0
abbrev resumeSkipCode : Nat := 1

/-- The checks of order 3 of R122. -/
def resumeRefused (t : Tenant) (skip : Bool) : Bool :=
  (t.state != .halted && t.state != .paused) || (t.state == .halted && t.recovery.isSome) ||
    (t.state == .halted && t.haltReason == some .postError && skip)

/-- A RESUME with its checks in their order (R122). -/
def carryOutResume (s : State) (c : CtlRecord) (skip : Bool) : State :=
  match tenantOfNumber (byteAt c.data 8) with
  | none => refuseControl s c .invalid .badTarget 0
  | some k =>
    let t := getTenant s k
    if resumeSkipCode < byteAt c.data 9 then refuseControl s c .invalid .badField t.mapVersion
    else if resumeRefused t skip then refuseControl s c .wrongState .none t.mapVersion
    else
      completeControl (setTenant s k (resumeTenant k t skip)) c (controlCompletion c .ok .none 0 0 t.mapVersion 0)

/-- RESUME_RETRY (R122, R124): the current RESUME has mode RETRY, or a mode that names none (log 14). -/
def execResumeRetry (s : State) : Host.Outcome State Fault Refusal :=
  .next (match currentControl s .resume with
    | none => s
    | some c => if byteAt c.data 9 = resumeSkipCode then s else carryOutResume s c false)

/-- RESUME_SKIP (R122, R128): the current RESUME has mode SKIP, or a mode that names none (log 14). -/
def execResumeSkip (s : State) : Host.Outcome State Fault Refusal :=
  .next (match currentControl s .resume with
    | none => s
    | some c => if byteAt c.data 9 = resumeRetryCode then s else carryOutResume s c true)

/-! ## SET_SERVICE (R173) -/

/-- SET_SERVICE (R173). -/
def execSetService (s : State) : Host.Outcome State Fault Refusal :=
  .next (match currentControl s .setService with
    | none => s
    | some c =>
      match tenantOfNumber (byteAt c.data 8) with
      | none => refuseControl s c .invalid .badTarget 0
      | some k =>
        let t := getTenant s k
        if serviceBad (byteAt c.data 9) (byteAt c.data 10) (halfAt c.data 12) then
          refuseControl s c .invalid .badField t.mapVersion
        else if t.state = .detached then refuseControl s c .wrongState .none t.mapVersion
        else
          completeControl (setTenant s k { t with weight := byteAt c.data 9, threshold := byteAt c.data 10,
                                                  holdoff := halfAt c.data 12 })
            c (controlCompletion c .ok .none 0 0 t.mapVersion 0))

/-! ## QUERY (R174, R175, R180) -/

/-- The report of a tenant, from its fields as they stand (R174). -/
def tenantReport (t : Tenant) : Report :=
  { state := stateCode t.state, haltReason := haltReasonCode t.haltReason, alert := alertCode t.cu.alert,
    drainRequested := t.drainRequested, producer := t.producer, fetch := t.chan.fetchIndex,
    writeIndex := t.cu.writeIndex, consumer := t.cu.consumer, prefetch := t.chan.queue.length, weight := t.weight,
    mapVersion := t.mapVersion, currentSeq := t.current.map fun e => e.seq,
    progress := t.progress.map fun p => p.done, cursor := windowCursor t,
    area := match t.window with | some w => windowArea w | none => 0 }

/-- The report of context 0; the QUERY itself is its current record (R174, R180). -/
def controlReport (s : State) (c : CtlRecord) : Report :=
  { state := activeCode, haltReason := 0, alert := alertCode s.control.cu.alert, drainRequested := false,
    producer := s.control.producer, fetch := s.control.fetchIndex, writeIndex := s.control.cu.writeIndex,
    consumer := s.control.cu.consumer, prefetch := optCount s.control.entry, weight := 0, mapVersion := 0,
    currentSeq := some c.seq, progress := none, cursor := Config.noCursor, area := 0 }

/-- The map version of a control record's target, 0 for context 0 or no target (R165). -/
def targetVersion (s : State) (n : Nat) : Index :=
  match tenantOfNumber n with
  | some k => (getTenant s k).mapVersion
  | none => 0

/-- The report of a QUERY's target. -/
def reportOf (s : State) (c : CtlRecord) : Report :=
  match tenantOfNumber (byteAt c.data 8) with
  | some k => tenantReport (getTenant s k)
  | none => controlReport s c

/-- QUERY (R174, R175): the report is built and issued as one 64-byte write. -/
def execQuery (s : State) : Host.Outcome State Fault Refusal :=
  .next (match currentControl s .query with
    | none => s
    | some c =>
      let n := byteAt c.data 8
      let a := longAt c.data 16
      if 7 < n then refuseControl s c .invalid .badTarget 0
      else if 2 ^ 40 ≤ a then refuseControl s c .invalid .badField (targetVersion s n)
      else if a % 64 ≠ 0 then refuseControl s c .invalid .align (targetVersion s n)
      else
        { s with control := { s.control with
            query := some { addr := BitVec.ofNat 40 a, data := encodeReport (reportOf s c),
                            mapVersion := (reportOf s c).mapVersion } } })

/-- The answer of the report write: the QUERY completes with the map version of the report; while RESETTING the answer is
dropped (R175, R162). -/
def endQuery (s : State) (status : Status) (reason : Reason) : State :=
  match s.control.query with
  | none => s
  | some q =>
    let s' := { s with control := { s.control with query := none } }
    if s.engine = .resetting then endResetIfDrained s'
    else match s.control.current with
      | none => s'
      | some c => completeControl s' c (controlCompletion c status reason 0 0 q.mapVersion 0)

/-- QUERY_REPORT_ACK (R175). -/
def execQueryReportAck (s : State) : Host.Outcome State Fault Refusal := .next (endQuery s .ok .none)

/-- QUERY_REPORT_ERROR (R175): BUS_ERROR with reason WRITE; the engine does not stop and no alert is raised. -/
def execQueryReportError (s : State) : Host.Outcome State Fault Refusal := .next (endQuery s .busError .write)

/-! ## NOTE (R176) -/

/-- NOTE (R176). -/
def execNote (s : State) : Host.Outcome State Fault Refusal :=
  .next (match currentControl s .note with
    | none => s
    | some c => completeControl s c (controlCompletion c .ok .none 0 0 0 0))

end Sys2Proof.Machine
end

