-- ==== Sys2Proof/Machine/Fetch.lean ====
section
/-! DEFINITION. The fetch unit: reads of the submission rings and their answers (R21, R22, R26 to R37). -/

namespace Sys2Proof.Machine

/-- The conditions of R27, the engine's aside. -/
def fetchReady (t : Tenant) : Bool :=
  attached t && (t.producer != t.chan.fetchIndex) && t.chan.inFlight.isNone &&
    decide (t.chan.queue.length < Config.queueDepth) && !t.chan.stop && !t.drainRequested && !t.chan.refetchWaiting

/-- The NORMAL read of the slot at the fetch index, which advances in the same step (R22, R27). -/
def issueFetch (t : Tenant) : Tenant :=
  { t with chan := { t.chan with
      fetchIndex := t.chan.fetchIndex + 1,
      inFlight := some { kind := .normal, seq := t.chan.fetchIndex,
                         addr := sqSlotAddr t.sqBase t.sqCode t.chan.fetchIndex, discard := false } } }

/-- FETCH_READ_ISSUE (R27). -/
def execFetchReadIssue (k : TenantId) (s : State) : Host.Outcome State Fault Refusal :=
  .next (if serving s = true ∧ fetchReady (getTenant s k) = true then setTenant s k (issueFetch (getTenant s k)) else s)

/-- CONTROL_READ_ISSUE (R35). -/
def execControlReadIssue (s : State) : Host.Outcome State Fault Refusal := .next (tryControlRead s)

/-- While RESETTING the answer of a tenant's fetch read is dropped (R19, R163). -/
def dropTenantRead (s : State) (k : TenantId) : State :=
  let t := getTenant s k
  endResetIfDrained (setTenant s k { t with chan := { t.chan with inFlight := none } })

/-- The read in flight of this kind and mark, if that is what the channel holds. -/
def readInFlight (t : Tenant) (kind : ReadKind) (discard : Bool) : Option FetchRead :=
  match t.chan.inFlight with
  | some r => if r.kind = kind ∧ r.discard = discard then some r else none
  | none => none

/-- An entry joins the tail of the queue as its read leaves the channel; an IDLE tenant takes it at once (R28, R29). -/
def joinQueue (k : TenantId) (t : Tenant) (e : Entry) : Tenant :=
  let t' := endRead { t with chan := { t.chan with queue := t.chan.queue ++ [e] } }
  if t'.state = .idle then takeHead k t' else t'

/-- FETCH_READ_ACK (R28). -/
def execFetchReadAck (k : TenantId) (data : Record) (s : State) : Host.Outcome State Fault Refusal :=
  .next (match readInFlight (getTenant s k) .normal false with
    | none => s
    | some r =>
      if s.engine = .resetting then dropTenantRead s k
      else setTenant s k (joinQueue k (getTenant s k) ⟨r.seq, .record data⟩))

/-- FETCH_READ_ERROR (R29): a failed entry joins and the fetch stop is set. -/
def execFetchReadError (k : TenantId) (s : State) : Host.Outcome State Fault Refusal :=
  .next (match readInFlight (getTenant s k) .normal false with
    | none => s
    | some r =>
      if s.engine = .resetting then dropTenantRead s k
      else
        let t := getTenant s k
        setTenant s k (joinQueue k { t with chan := { t.chan with stop := true } } ⟨r.seq, .failed⟩))

/-- The outcome of an acknowledged REFETCH (R32, R125): the record replaces the current one and is taken as a head. -/
def refetched (k : TenantId) (t : Tenant) (seq : Index) (data : Record) : Tenant :=
  let t' := clearStop { t with chan := { t.chan with inFlight := none } }
  if t.state = .halted then
    admitCurrent k { t' with current := some ⟨seq, .record data⟩, haltReason := none, recovery := none }
  else t'

/-- The outcome of a REFETCH that received an error response (R32, R125): a new FETCH_ERROR halt. -/
def refetchFailed (k : TenantId) (t : Tenant) (seq : Index) : Tenant :=
  let t' := { t with chan := { t.chan with inFlight := none, stop := true } }
  if t.state = .halted then haltFetchError k { t' with current := some ⟨seq, .failed⟩, recovery := none } else t'

/-- REFETCH_ACK (R32). -/
def execRefetchAck (k : TenantId) (data : Record) (s : State) : Host.Outcome State Fault Refusal :=
  .next (match readInFlight (getTenant s k) .refetch false with
    | none => s
    | some r =>
      if s.engine = .resetting then dropTenantRead s k
      else setTenant s k (refetched k (getTenant s k) r.seq data))

/-- REFETCH_ERROR (R32). -/
def execRefetchError (k : TenantId) (s : State) : Host.Outcome State Fault Refusal :=
  .next (match readInFlight (getTenant s k) .refetch false with
    | none => s
    | some r =>
      if s.engine = .resetting then dropTenantRead s k
      else setTenant s k (refetchFailed k (getTenant s k) r.seq))

/-- The test for PAUSED of R9. -/
def pauseConditions (t : Tenant) : Bool :=
  t.drainRequested && t.current.isNone && t.chan.queue.isEmpty && t.chan.inFlight.isNone

/-- A marked read has been answered: it leaves the channel, and an IDLE drained tenant enters PAUSED (R34, R9). -/
def endDiscardedRead (t : Tenant) : Tenant :=
  let t' := endRead t
  if t'.state = .idle ∧ pauseConditions t' = true then { t' with state := .paused } else t'

/-- DISCARDED_READ_ANSWER (R34): acknowledgement and error response act alike. -/
def execDiscardedReadAnswer (k : TenantId) (_ok : Bool) (s : State) : Host.Outcome State Fault Refusal :=
  .next (match (getTenant s k).chan.inFlight with
    | none => s
    | some r =>
      if r.discard then
        if s.engine = .resetting then dropTenantRead s k
        else setTenant s k (endDiscardedRead (getTenant s k))
      else s)

/-- While RESETTING the answer of a control read is dropped (R19, R37). -/
def dropControlRead (s : State) : State :=
  endResetIfDrained { s with control := { s.control with inFlight := none } }

/-- CONTROL_FETCH_ACK (R35, R37): the record becomes the prefetch entry, taken at once in ACTIVE with none current. -/
def execControlFetchAck (data : Record) (s : State) : Host.Outcome State Fault Refusal :=
  .next (match s.control.inFlight with
    | none => s
    | some r =>
      if s.engine = .resetting then dropControlRead s
      else takeControl { s with control := { s.control with inFlight := none, entry := some ⟨r.seq, data⟩ } })

/-- CONTROL_FETCH_ERROR (R36, R37): the fetch index returns to the failed slot and the engine is CTL_STOPPED. -/
def execControlFetchError (s : State) : Host.Outcome State Fault Refusal :=
  .next (match s.control.inFlight with
    | none => s
    | some r =>
      if s.engine = .resetting then dropControlRead s
      else { s with
        engine := if s.engine = .on then .ctlStopped else s.engine,
        control := { s.control with inFlight := none, fetchIndex := r.seq } })

end Sys2Proof.Machine
end

