-- ==== Sys2Proof/Machine/HostPort.lean ====
section
/-! DEFINITION. The T-port: the writes of the register window, and what they are answered (R23 to R25, R150 to R152,
R158 to R161, R181, R182). -/

namespace Sys2Proof.Machine

/-- A 4-byte write of the window: under RST_N it is answered with an error response and has no effect; while the engine
is RESETTING it is answered OK and refused without an alert (R24, R181); otherwise the word's own rule acts. -/
def tportWrite (s : State) (act : State → State) : State :=
  if s.rstAsserted then { s with tport := some .error }
  else
    let s' := { s with tport := some .ok }
    if s.engine = .resetting then s' else act s'

/-- Records an INDEX alert for a tenant (R24, R151). -/
def indexAlertTenant (s : State) (k : TenantId) : State :=
  let t := getTenant s k
  setTenant s k { t with cu := { t.cu with alert := recordAlert t.cu.alert .index } }

/-- Records an INDEX alert for context 0 (R25, R151). -/
def indexAlertControl (s : State) : State :=
  { s with control := { s.control with
      cu := { s.control.cu with alert := recordAlert s.control.cu.alert .index } } }

/-! ## Producer index words -/

/-- A producer index write of a tenant (R23, R24). -/
def producerWriteTenant (s : State) (k : TenantId) (v : Index) : State :=
  let t := getTenant s k
  if attached t = true ∧ (v - t.chan.fetchIndex).toNat ≤ ringSlots t.sqCode then
    setTenant s k { t with producer := v }
  else indexAlertTenant s k

/-- The index a control producer write is checked against: the sequence of a NORMAL read in flight, else the fetch
index (R25). -/
def controlReadPoint (c : Control) : Index :=
  match c.inFlight with
  | some r => r.seq
  | none => c.fetchIndex

/-- A producer index write of context 0: in OFF refused without an alert (R25). -/
def producerWriteControl (s : State) (v : Index) : State :=
  if serving s then
    if (v - controlReadPoint s.control).toNat ≤ ringSlots s.control.sqCode then
      { s with control := { s.control with producer := v } }
    else indexAlertControl s
  else s

/-- PRODUCER_INDEX_WRITE (R23, R24, R25): the index is bits 0 to 15 of the word. -/
def execProducerIndexWrite (c : Ctx) (w : Word) (s : State) : Host.Outcome State Fault Refusal :=
  .next (tportWrite s fun s =>
    match c with
    | .control => producerWriteControl s (w.extractLsb' 0 16)
    | .tenant k => producerWriteTenant s k (w.extractLsb' 0 16))

/-! ## Consumer index words -/

/-- The written consumer index passes the check against the write index (R150). -/
def consumerAdmitted (cu : CompletionUnit) (v : Index) : Bool :=
  decide ((v - cu.consumer).toNat ≤ (cu.writeIndex - cu.consumer).toNat)

/-- The write takes U to 0, or consumes the last urgent completion (R155). -/
def consumesUrgent (cu : CompletionUnit) (v : Index) : Bool :=
  cu.writeIndex == v || decide ((cu.lastUrgent - cu.consumer).toNat < (v - cu.consumer).toNat)

/-- A taken consumer write in the completion unit: the index and the urgent flag (R150, R155). -/
def consume (cu : CompletionUnit) (v : Index) : CompletionUnit :=
  { cu with consumer := v, urgent := if consumesUrgent cu v then false else cu.urgent }

/-- A consumer index write of a tenant (R150, R154, R155); a write equal to the old index changes nothing, and a
completion waiting for a slot is issued in the same step (R146). -/
def consumerWriteTenant (s : State) (k : TenantId) (v : Index) : State :=
  let t := getTenant s k
  if attached t = true ∧ consumerAdmitted t.cu v = true then
    if v = t.cu.consumer then s
    else
      let t1 := { t with cu := consume t.cu v }
      let t2 := if t.cu.writeIndex = v then { t1 with holdoffTimer := none, holdoffExpired := false } else t1
      setTenant s k (if serving s then tryPostTenant t2 else t2)
  else indexAlertTenant s k

/-- A consumer index write of context 0 (R150). -/
def consumerWriteControl (s : State) (v : Index) : State :=
  if serving s then
    if consumerAdmitted s.control.cu v = true then
      if v = s.control.cu.consumer then s
      else { s with control := tryPostControl { s.control with cu := consume s.control.cu v } }
    else indexAlertControl s
  else s

/-- CONSUMER_INDEX_WRITE (R150): the index is bits 0 to 15 of the word. -/
def execConsumerIndexWrite (c : Ctx) (w : Word) (s : State) : Host.Outcome State Fault Refusal :=
  .next (tportWrite s fun s =>
    match c with
    | .control => consumerWriteControl s (w.extractLsb' 0 16)
    | .tenant k => consumerWriteTenant s k (w.extractLsb' 0 16))

/-! ## Alert word -/

/-- The completion unit after an alert word write whose bit for its context is `hit`. -/
def clearAlert (hit : Bool) (cu : CompletionUnit) : CompletionUnit :=
  if hit then { cu with alert := none } else cu

/-- ALERT_WORD_WRITE (R152): each context whose bit is one loses its cause. -/
def execAlertWordWrite (w : Word) (s : State) : Host.Outcome State Fault Refusal :=
  .next (tportWrite s fun s =>
    let s' := mapTenants s fun k t => { t with cu := clearAlert (w.getLsbD (tenantNumber k)) t.cu }
    { s' with control := { s'.control with cu := clearAlert (w.getLsbD 0) s'.control.cu } })

/-! ## Engine word -/

/-- A size field of the engine word that holds a code of 0 to 6 is stored (R159). -/
def storedCode (old field : BitVec 3) : BitVec 3 := if field = 7 then old else field

/-- Stores the size fields of a taken engine word write (R159). -/
def storeSizeCodes (s : State) (w : Word) : State :=
  { s with sqCode := storedCode s.sqCode (w.extractLsb' 4 3), cqCode := storedCode s.cqCode (w.extractLsb' 8 3) }

/-- The ENABLE write taken in OFF: the control geometry is latched and the control context starts (R160). -/
def enableFromOff (s : State) : State :=
  { s with
    engine := .on,
    control := { s.control with
      sqBase := s.base, sqCode := s.sqCode.toNat,
      cqBase := s.base + BitVec.ofNat 40 (ringSlots s.sqCode.toNat * 64), cqCode := s.cqCode.toNat,
      producer := 0, fetchIndex := 0,
      cu := { s.control.cu with writeIndex := 0, consumer := 0, lap := true } } }

/-- The ENABLE write taken in CTL_STOPPED (R161): the post stop is cleared, a kept entry is taken when no record is
current, the pending completion is written again and the control channel is evaluated (R37, R148). -/
def enableFromStopped (s : State) : State :=
  let s1 := takeControl { s with engine := .on, control := { s.control with postStop := false } }
  tryControlRead { s1 with control := tryPostControl s1.control }

/-- ENABLE (R159 to R161): the size fields are stored before the ENABLE field is acted upon. -/
def execEnable (w : Word) (s : State) : Host.Outcome State Fault Refusal :=
  .next (tportWrite s fun s =>
    let s' := storeSizeCodes s w
    match s'.engine with
    | .off => enableFromOff s'
    | .ctlStopped => enableFromStopped s'
    | .on | .resetting => s')

/-- The SOFT_RESET write (R162): RESETTING, with a REFETCH waiting to be issued withdrawn (R26). -/
def beginSoftReset (s : State) : State :=
  mapTenants { s with engine := .resetting } fun _ t => { t with chan := { t.chan with refetchWaiting := false } }

/-- SOFT_RESET (R159, R162): the size fields are stored, and the reset ends at the write itself when the M-port holds
nothing. -/
def execSoftReset (w : Word) (s : State) : Host.Outcome State Fault Refusal :=
  .next (tportWrite s fun s => endResetIfDrained (beginSoftReset (storeSizeCodes s w)))

/-- SIZE_CODE_STORE (R159): an engine word write with neither field set stores the size codes. -/
def execSizeCodeStore (w : Word) (s : State) : Host.Outcome State Fault Refusal :=
  .next (tportWrite s fun s => storeSizeCodes s w)

/-! ## Control-ring base and other offsets -/

/-- The stored base after a write of one half; bits 0 to 5 stay 0 (R182). -/
def storeBase (old : Phys) (h : Half) (w : Word) : Phys :=
  match h with
  | .low => old.extractLsb' 32 8 ++ (w.extractLsb' 6 26 ++ (0 : BitVec 6))
  | .high => w.extractLsb' 0 8 ++ (old.extractLsb' 6 26 ++ (0 : BitVec 6))

/-- CONTROL_RING_BASE_WRITE (R158, R182). -/
def execControlRingBaseWrite (h : Half) (w : Word) (s : State) : Host.Outcome State Fault Refusal :=
  .next (tportWrite s fun s => { s with base := storeBase s.base h w })

/-- REGISTER_WRITE_OTHER (R181): answered OK, with no effect and no alert. -/
def execRegisterWriteOther (_offset : BitVec 8) (_w : Word) (s : State) : Host.Outcome State Fault Refusal :=
  .next (tportWrite s fun s => s)

/-- T_PORT_BAD_ACCESS (R181): an access of another size, at another offset, or under RST_N is answered with an error
response and has no effect. An access the part takes is not this command (log 1). -/
def execTPortBadAccess (_write : Bool) (offset : BitVec 8) (size : Nat) (s : State) :
    Host.Outcome State Fault Refusal :=
  .next (if s.rstAsserted || !accessAligned offset size then { s with tport := some .error } else s)

end Sys2Proof.Machine
end

