-- ==== Sys2Proof/Machine/MapUnit.lean ====
section
/-! DEFINITION. MAP_LOAD, MAP_CLEAR and the pending map operation (R105 to R112). -/

namespace Sys2Proof.Machine

/-- The entries of a MAP_LOAD: words 0 to `n` minus 1 from offset 16 (R178). -/
def loadEntries (r : Record) (n : Nat) : List MapEntry := (List.range n).map fun i => entryOfWord (wordAt r (16 + 4 * i))

/-- The operation of a MAP_LOAD whose fields pass order 2 of R108. -/
def loadOp (r : Record) : Option MapOp :=
  let first := halfAt r 10
  let n := byteAt r 12
  if 511 < first ∨ n = 0 ∨ 12 < n ∨ 512 < first + n then none else some (.load first (loadEntries r n))

/-- The operation of a MAP_CLEAR whose fields pass order 2 of R108. -/
def clearOp (r : Record) : Option MapOp :=
  let first := halfAt r 10
  let n := halfAt r 12
  if 511 < first ∨ n = 0 ∨ 512 < n ∨ 512 < first + n then none else some (.clear first n)

/-- A checked operation is applied at once, or left pending while its target holds a run (R110). -/
def passMapOp (s : State) (c : CtlRecord) (k : TenantId) (op : MapOp) : State :=
  let t := getTenant s k
  if holdsRun t then waitOnTarget (setTenant s k { t with pendingMap := some op }) c
  else
    let t' := applyMap op t
    completeControl (setTenant s k t') c (controlCompletion c .ok .none (mapOpCount op) 0 t'.mapVersion 0)

/-- The checks of R108 in their order, and the operation passed over (R112). -/
def carryOutMap (s : State) (c : CtlRecord) (op : Option MapOp) : State :=
  match tenantOfNumber (byteAt c.data 8) with
  | none => completeControl s c (controlCompletion c .invalid .badTarget 0 0 0 0)
  | some k =>
    match op with
    | none => completeControl s c (controlCompletion c .invalid .badField 0 0 (getTenant s k).mapVersion 0)
    | some o =>
      if (getTenant s k).state = .detached then completeControl s c (controlCompletion c .wrongState .none 0 0 0 0)
      else passMapOp s c k o

/-- MAP_LOAD (R108). -/
def execMapLoad (s : State) : Host.Outcome State Fault Refusal :=
  .next (match currentControl s .mapLoad with
    | none => s
    | some c => carryOutMap s c (loadOp c.data))

/-- MAP_CLEAR (R108). -/
def execMapClear (s : State) : Host.Outcome State Fault Refusal :=
  .next (match currentControl s .mapClear with
    | none => s
    | some c => carryOutMap s c (clearOp c.data))

/-- MAP_PENDING_APPLY (R110): the run of a target with an operation pending ends at its finish or halt, and the operation
is applied in that step (log 8); for a target that holds no run it is applied as it stands. -/
def execMapPendingApply (k : TenantId) (s : State) : Host.Outcome State Fault Refusal :=
  .next (
    let t := getTenant s k
    if serving s = true ∧ t.pendingMap.isSome then
      if holdsRun t then
        if s.tu.granted = some k then
          match s.tu.phase with
          | .draining .finish => endFinishDrain s
          | .draining .halt => endHaltDrain s
          | _ => s
        else s
      else endOfRun s k
    else s)

end Sys2Proof.Machine
end

