-- ==== Sys2Proof/Machine/Posting.lean ====
section
/-! DEFINITION. The completion unit: the issue of a post and its answers (R121, R123, R144 to R149, R155). -/

namespace Sys2Proof.Machine

/-- POST_ISSUE (R144). -/
def execPostIssue (c : Ctx) (s : State) : Host.Outcome State Fault Refusal :=
  .next (if serving s then
    match c with
    | .control => { s with control := tryPostControl s.control }
    | .tenant k => setTenant s k (tryPostTenant (getTenant s k))
  else s)

/-- The completion unit after the post of `c` is acknowledged (R145, R155). -/
def acknowledgePost (cu : CompletionUnit) (code : Nat) (c : Completion) : CompletionUnit :=
  { cu with
    writeIndex := cu.writeIndex + 1,
    lap := if (cu.writeIndex + 1).toNat % ringSlots code = 0 then !cu.lap else cu.lap,
    pending := none, post := none,
    urgent := cu.urgent || c.urgent,
    lastUrgent := if c.urgent then cu.writeIndex else cu.lastUrgent }

/-- The posted report as the context table takes it: the record boundary, or, HALTED, a recovery step (R8, R123). -/
def postedReport (k : TenantId) (t : Tenant) : Tenant :=
  match t.state with
  | .posting => recordBoundary k t
  | .halted => recoverAfterPost k t
  | _ => t

/-- The acknowledgement of a tenant's post (R145): the holdoff timer is loaded when U goes from 0 to 1 (R154). -/
def ackTenantPost (k : TenantId) (t : Tenant) (c : Completion) : Tenant :=
  postedReport k { t with
    cu := acknowledgePost t.cu t.cqCode c,
    holdoffTimer := if unconsumed t.cu = 0 ∧ t.holdoff ≠ 0 then some t.holdoff else t.holdoffTimer }

/-- The pending completion whose post is in flight with its discard mark clear. -/
def postInFlight (cu : CompletionUnit) : Option Completion :=
  match cu.post, cu.pending with
  | some p, some c => if p.discard then none else some c
  | _, _ => none

/-- While RESETTING the answer of a tenant's post is dropped (R149). -/
def dropTenantPost (s : State) (k : TenantId) : State :=
  let t := getTenant s k
  endResetIfDrained (setTenant s k { t with cu := { t.cu with post := none } })

/-- While RESETTING the answer of a control post is dropped (R149). -/
def dropControlPost (s : State) : State :=
  endResetIfDrained { s with control := { s.control with cu := { s.control.cu with post := none } } }

/-- The acknowledgement of a post in every engine state. -/
def tenantPostAcked (s : State) (k : TenantId) : State :=
  match postInFlight (getTenant s k).cu with
  | none => s
  | some c =>
    if s.engine = .resetting then dropTenantPost s k else setTenant s k (ackTenantPost k (getTenant s k) c)

/-- POST_ACK (R145). -/
def execPostAck (c : Ctx) (s : State) : Host.Outcome State Fault Refusal :=
  .next (match c with
    | .tenant k => tenantPostAcked s k
    | .control =>
      match postInFlight s.control.cu with
      | none => s
      | some p =>
        if s.engine = .resetting then dropControlPost s
        else controlBoundary { s with control := { s.control with
               cu := acknowledgePost s.control.cu s.control.cqCode p } })

/-- RECOVERY_AFTER_POST (R123): the posted report of the interim completion of a HALTED tenant that has a
RETRY_AFTER_POST or SKIP_AFTER_POST step (log 8). -/
def execRecoveryAfterPost (k : TenantId) (s : State) : Host.Outcome State Fault Refusal :=
  .next (
    let t := getTenant s k
    if t.state = .halted ∧ (t.recovery = some .retryAfterPost ∨ t.recovery = some .skipAfterPost) then
      tenantPostAcked s k
    else s)

/-- An error response to a tenant's post (R15, R148, R151): POST_ERROR, the completion kept, a recovery step discarded. -/
def failTenantPost (t : Tenant) : Tenant :=
  let t' := { t with cu := { t.cu with post := none, alert := recordAlert t.cu.alert .post } }
  if t.state = .posting ∨ t.state = .halted then
    { t' with state := .halted, haltReason := some .postError, recovery := none }
  else t'

/-- An error response to the control context's post (R148, R161). -/
def failControlPost (s : State) : State :=
  { s with
    engine := if s.engine = .on then .ctlStopped else s.engine,
    control := { s.control with
      postStop := true,
      cu := { s.control.cu with post := none, alert := recordAlert s.control.cu.alert .post } } }

/-- POST_ERROR (R148). -/
def execPostError (c : Ctx) (s : State) : Host.Outcome State Fault Refusal :=
  .next (match c with
    | .tenant k =>
      match postInFlight (getTenant s k).cu with
      | none => s
      | some _ => if s.engine = .resetting then dropTenantPost s k else setTenant s k (failTenantPost (getTenant s k))
    | .control =>
      match postInFlight s.control.cu with
      | none => s
      | some _ => if s.engine = .resetting then dropControlPost s else failControlPost s)

/-- DISCARDED_POST_ANSWER (R149): the place is freed and nothing else changes. -/
def execDiscardedPostAnswer (k : TenantId) (_ok : Bool) (s : State) : Host.Outcome State Fault Refusal :=
  .next (match (getTenant s k).cu.post with
    | none => s
    | some p => if p.discard then dropTenantPost s k else s)

end Sys2Proof.Machine
end

