-- ==== Sys2Proof/Machine/Resets.lean ====
section
/-! DEFINITION. RST_N and the end of a soft reset (R18, R19, R133, R162). -/

namespace Sys2Proof.Machine

/-- RST_N_ASSERT (R18, R163): every context, block and register at its power-on values, outstanding transactions
abandoned. -/
def execRstNAssert (s : State) : Host.Outcome State Fault Refusal :=
  .next { State.reset with pending := s.pending, rstAsserted := true }

/-- RST_N_RELEASE (R18, R133): the engine is OFF, every tenant DETACHED, and the timebase starts. -/
def execRstNRelease (s : State) : Host.Outcome State Fault Refusal := .next { s with rstAsserted := false }

/-- SOFT_RESET_END (R19, R162): while RESETTING, the answer of the last outstanding transaction is dropped and every
block takes its reset values (log 8). -/
def execSoftResetEnd (s : State) : Host.Outcome State Fault Refusal :=
  .next (if s.engine = .resetting ∧ mportOutstanding s ≤ 1 then resetBlocks s else s)

end Sys2Proof.Machine
end

