-- ==== Sys2Proof/Machine/Timer.lean ====
section
/-! DEFINITION. The timer unit: sync edges, the timebase step with its arrivals and expiries, and the begin of a WAIT
(R133 to R141, R154). -/

namespace Sys2Proof.Machine

/-- SYNC_EDGE (R134): the edge sets the line's latch; under RST_N and while RESETTING edges are not latched. -/
def execSyncEdge (l : Line) (s : State) : Host.Outcome State Fault Refusal :=
  .next (if s.rstAsserted || s.engine == .resetting then s else { s with latches := setLine s.latches l true })

/-- The timebase drives timers and arrivals: RST_N is not asserted and the engine is not RESETTING (R133, R134, R141,
R154). -/
def timebaseDrives (s : State) : Bool := !s.rstAsserted && s.engine != .resetting

/-- The order of the arrivals and expiries of the current timebase step (R139), a free value (log 4). -/
def freeOrder (s : State) (k : TenantId) : Bool := Config.expiryFirst s.draws k

/-- TIMEBASE_STEP (R133, R134, R137 to R139, R154): every running timer is decremented, every set latch delivers one
arrival and is cleared, and every timer brought to 0 expires. While RESETTING the timebase runs and drives nothing. -/
def execTimebaseStep (s : State) : Host.Outcome State Fault Refusal :=
  .next (if timebaseDrives s then timebaseStep s (freeOrder s)
    else if s.rstAsserted then s else { s with draws := s.draws + 1 })

/-- The tenant counts on this line. -/
def countsOn (l : Line) (t : Tenant) : Bool :=
  match t.wait with
  | .counting line _ _ => line == l
  | .stopped => false

/-- ARRIVAL (R134, R137): the timebase step at which the set latch of this line delivers its arrival, taken before the
expiry of a tenant that counts on the line (log 4, 8). -/
def execArrival (l : Line) (s : State) : Host.Outcome State Fault Refusal :=
  .next (if timebaseDrives s && getLine s.latches l then
    timebaseStep s fun k => !countsOn l (getTenant s k) && freeOrder s k
  else s)

/-- The tenant's wait timer reaches 0 at the next timebase step. -/
def waitExpiresNext (t : Tenant) : Bool := t.wait != .stopped && t.waitTimer == some 1

/-- WAIT_TIMEOUT (R138): the timebase step that brings the tenant's wait timer to 0, its expiry taken before an arrival
of that step (log 4, 8). -/
def execWaitTimeout (k : TenantId) (s : State) : Host.Outcome State Fault Refusal :=
  .next (if timebaseDrives s && waitExpiresNext (getTenant s k) then
    timebaseStep s fun j => j == k || freeOrder s j
  else s)

/-- HOLDOFF_EXPIRY (R154): the timebase step that brings the tenant's holdoff timer to 0 (log 8). -/
def execHoldoffExpiry (k : TenantId) (s : State) : Host.Outcome State Fault Refusal :=
  .next (if timebaseDrives s && (getTenant s k).holdoffTimer == some 1 then timebaseStep s (freeOrder s) else s)

/-- The posted report makes a WAIT current: a POSTING tenant has one at the head of its queue, or a TIMEOUT halt has a
RETRY_AFTER_POST step. -/
def postBringsWait (t : Tenant) : Bool :=
  match t.state with
  | .posting =>
    match t.chan.queue with
    | ⟨_, .record r⟩ :: _ => kindOf r == some .wait
    | _ => false
  | .halted => t.recovery == some .retryAfterPost && t.haltReason == some .timeout
  | _ => false

/-- WAIT (R136): a WAIT that is current and not begun is checked and begun, or refused. The part does this in the step
that makes the WAIT current; of those steps the command is the acknowledgement of the tenant's post (log 8). -/
def execWait (k : TenantId) (s : State) : Host.Outcome State Fault Refusal :=
  .next (
    let t := getTenant s k
    if serving s then if postBringsWait t then tenantPostAcked s k else setTenant s k (beginWait k t) else s)

end Sys2Proof.Machine
end

