-- ==== Sys2Proof/Machine/Dispatch.lean ====
section
/-! DEFINITION. One arm per row of the table: each calls the row's meaning. -/

namespace Sys2Proof.Machine

def exec (i : Instr) (s : State) : Host.Outcome State Fault Refusal :=
  match i with
  | .producerIndexWrite c word => Sys2Proof.Machine.execProducerIndexWrite c word s
  | .consumerIndexWrite c word => Sys2Proof.Machine.execConsumerIndexWrite c word s
  | .alertWordWrite word => Sys2Proof.Machine.execAlertWordWrite word s
  | .enable word => Sys2Proof.Machine.execEnable word s
  | .softReset word => Sys2Proof.Machine.execSoftReset word s
  | .sizeCodeStore word => Sys2Proof.Machine.execSizeCodeStore word s
  | .controlRingBaseWrite h word => Sys2Proof.Machine.execControlRingBaseWrite h word s
  | .registerWriteOther offset word => Sys2Proof.Machine.execRegisterWriteOther offset word s
  | .tPortBadAccess write offset size => Sys2Proof.Machine.execTPortBadAccess write offset size s
  | .rstNAssert => Sys2Proof.Machine.execRstNAssert s
  | .rstNRelease => Sys2Proof.Machine.execRstNRelease s
  | .softResetEnd => Sys2Proof.Machine.execSoftResetEnd s
  | .syncEdge l => Sys2Proof.Machine.execSyncEdge l s
  | .arrival l => Sys2Proof.Machine.execArrival l s
  | .waitTimeout k => Sys2Proof.Machine.execWaitTimeout k s
  | .holdoffExpiry k => Sys2Proof.Machine.execHoldoffExpiry k s
  | .fetchReadIssue k => Sys2Proof.Machine.execFetchReadIssue k s
  | .controlReadIssue => Sys2Proof.Machine.execControlReadIssue s
  | .fetchReadAck k data => Sys2Proof.Machine.execFetchReadAck k data s
  | .fetchReadError k => Sys2Proof.Machine.execFetchReadError k s
  | .controlFetchAck data => Sys2Proof.Machine.execControlFetchAck data s
  | .controlFetchError => Sys2Proof.Machine.execControlFetchError s
  | .refetchAck k data => Sys2Proof.Machine.execRefetchAck k data s
  | .refetchError k => Sys2Proof.Machine.execRefetchError k s
  | .discardedReadAnswer k ok => Sys2Proof.Machine.execDiscardedReadAnswer k ok s
  | .grant => Sys2Proof.Machine.execGrant s
  | .surface => Sys2Proof.Machine.execSurface s
  | .window => Sys2Proof.Machine.execWindow s
  | .put => Sys2Proof.Machine.execPut s
  | .get => Sys2Proof.Machine.execGet s
  | .copy => Sys2Proof.Machine.execCopy s
  | .fill => Sys2Proof.Machine.execFill s
  | .mark => Sys2Proof.Machine.execMark s
  | .probe => Sys2Proof.Machine.execProbe s
  | .wait k => Sys2Proof.Machine.execWait k s
  | .takeUp => Sys2Proof.Machine.execTakeUp s
  | .heldTransactionIssue r => Sys2Proof.Machine.execHeldTransactionIssue r s
  | .elementReadAck r value => Sys2Proof.Machine.execElementReadAck r value s
  | .elementWriteAck ord => Sys2Proof.Machine.execElementWriteAck ord s
  | .elementErrorResponse r => Sys2Proof.Machine.execElementErrorResponse r s
  | .drainFinish => Sys2Proof.Machine.execDrainFinish s
  | .drainPreempt => Sys2Proof.Machine.execDrainPreempt s
  | .drainHalt => Sys2Proof.Machine.execDrainHalt s
  | .abortDone => Sys2Proof.Machine.execAbortDone s
  | .mapPendingApply k => Sys2Proof.Machine.execMapPendingApply k s
  | .postIssue c => Sys2Proof.Machine.execPostIssue c s
  | .postAck c => Sys2Proof.Machine.execPostAck c s
  | .recoveryAfterPost k => Sys2Proof.Machine.execRecoveryAfterPost k s
  | .postError c => Sys2Proof.Machine.execPostError c s
  | .discardedPostAnswer k ok => Sys2Proof.Machine.execDiscardedPostAnswer k ok s
  | .attach => Sys2Proof.Machine.execAttach s
  | .detach => Sys2Proof.Machine.execDetach s
  | .drain => Sys2Proof.Machine.execDrain s
  | .drainEnd => Sys2Proof.Machine.execDrainEnd s
  | .resumeRetry => Sys2Proof.Machine.execResumeRetry s
  | .resumeSkip => Sys2Proof.Machine.execResumeSkip s
  | .mapLoad => Sys2Proof.Machine.execMapLoad s
  | .mapClear => Sys2Proof.Machine.execMapClear s
  | .setService => Sys2Proof.Machine.execSetService s
  | .query => Sys2Proof.Machine.execQuery s
  | .queryReportAck => Sys2Proof.Machine.execQueryReportAck s
  | .queryReportError => Sys2Proof.Machine.execQueryReportError s
  | .note => Sys2Proof.Machine.execNote s
  | .timebaseStep => Sys2Proof.Machine.execTimebaseStep s

end Sys2Proof.Machine
end

