-- ==== Sys2Proof/Safety.lean ====
section
/-! DEFINITION. What a sound state of the part is: the invariants that the spec states over the whole part, and the
conditions and outcomes that several statements share. -/

namespace Sys2Proof.Machine

/-! ## The grant (R81, R85) -/

/-- Statuses a faulting element records: the three map faults and BUS_ERROR (sections 5.4 and 6.2). -/
def isFaultStatus : Status → Bool
  | .faultAbsent | .faultNoRead | .faultNoWrite | .busError => true
  | .ok | .invalid | .fetchError | .timeout | .skipped | .wrongState | .haltedTarget => false

/-- R81, R85: the transfer unit is FREE exactly while no tenant is granted, then with every field at its value of FREE; a
RUNNING tenant is the granted one, a DETACHING tenant is the granted one in an ABORT drain, a granted tenant is RUNNING or
DETACHING, a grant request is in progress only while the unit is FREE, and a recorded faulting element has a status of
section 5.4. -/
def GrantInv (s : State) : Prop :=
  (s.tu.phase = .free → s.tu = {}) ∧
  (s.tu.granted = none → s.tu.phase = .free) ∧
  (s.grantInProgress ≠ none → s.tu.phase = .free) ∧
  s.tu.faulting.all (fun f => isFaultStatus f.status) = true ∧
  (∀ k, (getTenant s k).state = .running →
    s.tu.granted = some k ∧ s.tu.phase ≠ .free ∧ s.tu.phase ≠ .draining .abort) ∧
  (∀ k, (getTenant s k).state = .detaching → s.tu.granted = some k ∧ s.tu.phase = .draining .abort) ∧
  (∀ k, s.tu.granted = some k → (getTenant s k).state = .running ∨ (getTenant s k).state = .detaching)

/-! ## The tenant state table (section 1.3) -/

/-- States in which the current record is present (section 1.3). -/
def holdsRecord : TState → Bool
  | .ready | .running | .waiting | .posting | .halted | .detaching => true
  | .detached | .idle | .paused => false

/-- A REFETCH of this attachment is in flight. -/
def liveRefetch (t : Tenant) : Bool :=
  match t.chan.inFlight with
  | some r => r.kind == .refetch && !r.discard
  | none => false

/-- States in which a progress record may be present (the table of optional parts of section 1.3; POSTING keeps none once
its terminal completion is built, R14). -/
def mayHoldProgress : TState → Bool
  | .ready | .running | .halted | .detaching => true
  | .detached | .idle | .waiting | .posting | .paused => false

/-- The current record is a record that was read, and no failed entry. -/
def currentIsRecord (t : Tenant) : Bool :=
  match t.current with
  | some ⟨_, .record _⟩ => true
  | _ => false

/-- The halt reasons of a stop at an element: the map faults and BUS_ERROR (section 1.7). -/
def isFaultHalt : HaltReason → Bool
  | .absent | .noRead | .noWrite | .busError => true
  | .fetchError | .invalid | .timeout | .postError => false

/-- The progress-record row of the table of optional parts of section 1.3: the states it is present in, and absent after a
FETCH_ERROR, INVALID or TIMEOUT halt; a completion pending beside it is the interim one of a fault. -/
def ProgressRow (t : Tenant) : Prop :=
  t.progress.isSome = true →
    mayHoldProgress t.state = true ∧
    t.haltReason.all (fun h => isFaultHalt h || h == .postError) = true ∧
    t.cu.pending.all (fun c => c.interim && isFaultStatus c.status) = true

/-- WAITING is the state of a WAIT that counts (sections 8.3 and 8.4), and what a TIMEOUT halt holds is that WAIT. -/
def WaitRow (t : Tenant) : Prop :=
  (t.wait ≠ .stopped ↔ t.state = .waiting) ∧
  (t.state = .waiting ∨ t.haltReason = some .timeout ∨
      t.cu.pending.any (fun c => c.interim && c.status == .timeout) = true →
    currentIsRecord t = true) ∧
  (t.waitTimer.isSome = true → t.wait ≠ .stopped) ∧
  t.waitTimer ≠ some 0 ∧ t.holdoffTimer ≠ some 0

/-- The table of section 1.3 and the table of optional parts below it, with the recovery step of section 7.3 and the wait
state of section 8.3. -/
def TenantTable (t : Tenant) : Prop :=
  t.current.isSome = holdsRecord t.state ∧
  t.haltReason.isSome = (t.state == .halted) ∧
  (t.cu.pending.isSome = true → t.state = .posting ∨ t.state = .halted) ∧
  (t.state = .posting → t.cu.pending.isSome = true) ∧
  (t.recovery.isSome = true → t.state = .halted) ∧
  ProgressRow t ∧ WaitRow t ∧
  (t.chan.refetchWaiting = true ∨ liveRefetch t = true → t.recovery = some .refetchOutstanding) ∧
  (t.chan.refetchWaiting = true → liveRefetch t = false) ∧
  (t.recovery = some .refetchOutstanding →
    t.cu.pending = none ∧ (t.haltReason = some .fetchError ∨ t.haltReason = some .invalid)) ∧
  (∀ c, t.cu.pending = some c → c.interim = true → (haltReasonOf c.status).isSome = true)

/-- A tenant in DETACHED holds the detached values, but for an alert cause and for a read or post of an earlier
attachment, which is marked (R20, R26, R142, R149, R151). -/
def detachedValues (t : Tenant) : Tenant :=
  { ({} : Tenant) with
    chan := { ({} : Channel) with inFlight := markRead t.chan.inFlight },
    cu := { ({} : CompletionUnit) with post := markPost t.cu.post, alert := t.cu.alert } }

/-- Every tenant agrees with the table, and a DETACHED one holds the detached values. -/
def TenantTableInv (s : State) : Prop :=
  ∀ k, TenantTable (getTenant s k) ∧
    ((getTenant s k).state = .detached → getTenant s k = detachedValues (getTenant s k))

/-! ## OFF (R16, R18) -/

/-- A tenant at the detached values, with an alert cause. -/
def offTenant (a : Option Alert) : Tenant := { ({} : Tenant) with cu := { ({} : CompletionUnit) with alert := a } }

/-- R16, R18, R158: with RST_N asserted the engine is OFF; in OFF no tenant is attached, the control context holds its
detached values, the transfer unit is FREE, no grant is in progress and nothing is outstanding at the M-port. -/
def OffInv (s : State) : Prop :=
  (s.rstAsserted = true → s.engine = .off) ∧
  (s.engine = .off → s.control = {} ∧ s.tu = {} ∧ s.grantInProgress = none ∧
    ∀ k, getTenant s k = offTenant (getTenant s k).cu.alert)

/-! ## Rings and indices (R21, R23, R150, R158, R166) -/

/-- A post in flight of this attachment. -/
def livePost (cu : CompletionUnit) : Bool :=
  match cu.post with
  | some p => !p.discard
  | none => false

/-- R150: at most a ring of unconsumed completions, and room for the one whose post is in flight. -/
def CompletionRingOk (cu : CompletionUnit) (code : Nat) : Prop :=
  unconsumed cu + (livePost cu).toNat ≤ ringSlots code

/-- R23, R150, R166: the geometry of an attached tenant and its indices. -/
def TenantRings (t : Tenant) : Prop :=
  attached t = true →
    t.sqCode ≤ 6 ∧ t.cqCode ≤ 6 ∧ t.sqBase.toNat % 64 = 0 ∧ t.cqBase.toNat % 32 = 0 ∧
    (t.producer - t.chan.fetchIndex).toNat ≤ ringSlots t.sqCode ∧ CompletionRingOk t.cu t.cqCode

/-- R158 to R160, R150: the stored control-ring registers, the latched control geometry, and the completion indices of
context 0 within its ring. The bound of R23 on its producer index is not claimed (log 26). -/
def ControlRings (s : State) : Prop :=
  s.sqCode.toNat ≤ 6 ∧ s.cqCode.toNat ≤ 6 ∧ s.base.toNat % 64 = 0 ∧
  (serving s = true → s.control.sqCode ≤ 6 ∧ s.control.cqCode ≤ 6 ∧ s.control.sqBase.toNat % 64 = 0 ∧
    s.control.cqBase.toNat % 32 = 0 ∧ CompletionRingOk s.control.cu s.control.cqCode)

/-- The rings of every context. -/
def RingInv (s : State) : Prop := ControlRings s ∧ ∀ k, TenantRings (getTenant s k)

/-! ## Capacities (R27, R35, R86) -/

/-- A NORMAL read of this attachment is in flight: its record has a place in the queue. -/
def normalInFlight (t : Tenant) : Bool :=
  match t.chan.inFlight with
  | some r => r.kind == .normal && !r.discard
  | none => false

/-- Sections 2.3 and 5.2: at most four entries with the one being read, at most eight places. -/
def CapacityInv (s : State) : Prop :=
  s.tu.outstanding.length ≤ 8 ∧
  ∀ k, (getTenant s k).chan.queue.length + (normalInFlight (getTenant s k)).toNat ≤ 4

/-! ## The transfer unit's elements (section 5.2, R86, R88, R92, R183) -/

/-- The counts and the outstanding set of the transfer unit: wraps saturate; the ordinals ended out of order rise, above
the acknowledged prefix; the outstanding ordinals rise, none ended, each below the next ordinal, or the fill read at it; a
faulting element is recorded in a HALT drain and in no other phase, it is not outstanding, and no element above it is held;
in an ABORT drain no element is held. -/
def UnitInv (u : TransferUnit) : Prop :=
  u.wraps ≤ Config.wrapsMax ∧ u.done ≤ u.nextOrd ∧
  u.ended.Pairwise (· < ·) ∧ (∀ o ∈ u.ended, u.done < o ∧ o < u.nextOrd) ∧
  u.outstanding.Pairwise (fun a b => a.ord < b.ord) ∧
  (∀ e ∈ u.outstanding, u.done ≤ e.ord ∧ e.ord ∉ u.ended ∧
    (e.fill = false → e.ord < u.nextOrd) ∧ (e.fill = true → e.ord = u.nextOrd)) ∧
  (u.phase = .draining .halt ↔ u.faulting.isSome = true) ∧
  (∀ f, u.faulting = some f → ∀ e ∈ u.outstanding,
    e.ord ≠ f.ord ∧ (f.ord < e.ord → inFlightStage e.stage = true)) ∧
  (u.phase = .draining .abort → ∀ e ∈ u.outstanding, inFlightStage e.stage = true)

/-- The plan is what the tenant's current record, surfaces and window make of it (R61, R96). -/
def PlanOfTenant (t : Tenant) (p : Plan) : Prop :=
  ∃ q r, t.current = some ⟨q, .record r⟩ ∧ planOf t r p.cs = some p

/-- For a PUT or GET, the window cursor stands where `n` acknowledged in-window elements put it (R47, R49). -/
def CursorAt (t : Tenant) (p : Plan) (n : Nat) : Prop :=
  p.kind = .put ∨ p.kind = .get →
    ∃ w, t.window = some w ∧ p.cs ≤ windowArea w ∧ w.cursor = cursorAdvanced p n

/-- The granted record: nothing is taken up before its checks; then the plan is the tenant's, no ordinal passes the
record's end, the fill read stands at an overrun element of a GET under HOLD, the cursor counts the acknowledged in-window
elements, and with no fault every ordinal taken up has ended or is outstanding. -/
def RunInv (s : State) : Prop :=
  ∀ k, s.tu.granted = some k →
    (s.tu.plan = none → s.tu.nextOrd = 0 ∧ s.tu.outstanding = []) ∧
    ∀ p, s.tu.plan = some p →
      PlanOfTenant (getTenant s k) p ∧ s.tu.nextOrd ≤ takeUps p ∧
      (∀ f, s.tu.faulting = some f → f.ord < takeUps p) ∧
      (∀ e ∈ s.tu.outstanding, e.fill = true →
        e.ord < takeUps p ∧ p.kind = .get ∧ p.policy = .hold ∧ inWindow p e.ord = false ∧
        (e.stage = .readHeld ∨ e.stage = .readIssued)) ∧
      CursorAt (getTenant s k) p ((List.range s.tu.done ++ s.tu.ended).countP (inWindow p)) ∧
      (s.engine ≠ .resetting → s.tu.phase ≠ .draining .halt → s.tu.phase ≠ .draining .abort →
        ∀ o, s.tu.done ≤ o → o < s.tu.nextOrd →
          o ∈ s.tu.ended ∨ ∃ e ∈ s.tu.outstanding, e.fill = false ∧ e.ord = o)

/-! ## Surfaces, windows and stopped records (R12, R13, R39, R42, R47) -/

/-- A present surface slot has passed the checks of R39. -/
def SurfaceRow (f : Surface) : Prop :=
  (f.size = 1 ∨ f.size = 2 ∨ f.size = 4) ∧ 0 < f.width ∧ f.width ≤ 4096 ∧ 0 < f.height ∧ f.height ≤ 4096 ∧
  f.size * f.width ≤ f.pitch ∧ f.pitch ≤ 65532 ∧ f.base % f.size = 0 ∧ f.pitch % f.size = 0 ∧
  f.base + (f.height - 1) * f.pitch + f.width * f.size ≤ 8388608

/-- R42, R47: a present window lies within the present surface of its slot, its cursor between 0 and the area. -/
def WindowRow (t : Tenant) : Prop :=
  (∀ i f, slotGet t.surfaces i = some f → SurfaceRow f) ∧
  ∀ w, t.window = some w → ∃ f, slotGet t.surfaces w.slot = some f ∧
    w.x0 ≤ w.x1 ∧ w.x1 < f.width ∧ w.y0 ≤ w.y1 ∧ w.y1 < f.height ∧ w.cursor ≤ windowArea w

/-- R12, R13: a READY or HALTED tenant with a progress record can continue its current record from elements done, and the
window cursor stands where they put it. -/
def StoppedRow (t : Tenant) : Prop :=
  ∀ g, t.progress = some g → t.state = .ready ∨ t.state = .halted →
    g.wraps ≤ Config.wrapsMax ∧ ∃ p, PlanOfTenant t p ∧ p.cs = g.cursorAtStart.getD 0 ∧ g.done ≤ takeUps p ∧
      CursorAt t p g.done

/-- The transfer unit's elements, the granted record, every window and every stopped record. -/
def ElementsInv (s : State) : Prop :=
  UnitInv s.tu ∧ RunInv s ∧ ∀ k, WindowRow (getTenant s k) ∧ StoppedRow (getTenant s k)

/-! ## Maps (R99, R108) -/

/-- The pages of a map operation lie in the segment. -/
def mapOpFits : MapOp → Prop
  | .load first entries => first + entries.length ≤ Config.pages
  | .clear first count => first + count ≤ Config.pages

/-- Every segment is in canonical form, and every pending operation fits it. -/
def MapInv (s : State) : Prop :=
  ∀ k, segmentWf (getTenant s k).segment = true ∧ ∀ op, (getTenant s k).pendingMap = some op → mapOpFits op

/-- A sound state: all of the above. -/
def Sound (s : State) : Prop :=
  GrantInv s ∧ TenantTableInv s ∧ OffInv s ∧ RingInv s ∧ CapacityInv s ∧ ElementsInv s ∧ MapInv s

/-! ## Shared conditions -/

/-- The T-port takes the access: RST_N is not asserted, and the engine is not RESETTING (R24, R181). -/
def hostTaken (s : State) : Prop := s.rstAsserted = false ∧ s.engine ≠ .resetting

/-- Tenant `k` is granted, and the checks of its current record `r`, of kind `kd`, are to be made now (R58, R82). -/
def FirstGrant (s : State) (k : TenantId) (r : Record) (kd : Kind) : Prop :=
  serving s = true ∧ s.tu.phase = .issuing ∧ s.tu.plan = none ∧ s.tu.granted = some k ∧
  (getTenant s k).state = .running ∧ (getTenant s k).progress = none ∧
  (getTenant s k).current.map (fun e => e.body) = some (.record r) ∧ kindOf r = some kd

/-- Tenant `k` is RUNNING under the plan `p`, the unit in this phase. -/
def UnderGrant (s : State) (k : TenantId) (p : Plan) (ph : Phase) : Prop :=
  serving s = true ∧ s.tu.phase = ph ∧ s.tu.granted = some k ∧ s.tu.plan = some p ∧ (getTenant s k).state = .running

/-- The current control record is `c`, of kind `kd`, EXECUTING and not carried out yet (R164). -/
def Executing (s : State) (c : CtlRecord) (kd : Kind) : Prop :=
  serving s = true ∧ s.control.current = some c ∧ c.op = .executing ∧ s.control.cu.pending = none ∧
  s.control.query = none ∧ kindOf c.data = some kd

/-- The channel's read in flight is `r`. -/
def ReadOutstanding (t : Tenant) (r : FetchRead) (kind : ReadKind) (discard : Bool) : Prop :=
  t.chan.inFlight = some r ∧ r.kind = kind ∧ r.discard = discard

/-- A tenant's post is in flight, not marked, for the pending completion `c`. -/
def PostOutstanding (cu : CompletionUnit) (c : Completion) : Prop :=
  cu.pending = some c ∧ livePost cu = true

/-- A command that is a write of the register window the T-port decodes (R181). -/
def isRegisterWrite : Instr → Bool
  | .producerIndexWrite _ _ | .consumerIndexWrite _ _ | .alertWordWrite _ | .enable _ | .softReset _ | .sizeCodeStore _
  | .controlRingBaseWrite _ _ | .registerWriteOther _ _ => true
  | _ => false

/-- `e` is the outstanding element that the answer or the issue names, at one of these stages, under the plan `p` of
tenant `k`. -/
def Names (s : State) (k : TenantId) (p : Plan) (r : ElemRef) (stages : List Stage) (e : Elem) : Prop :=
  s.tu.granted = some k ∧ s.tu.plan = some p ∧ findElem s.tu.outstanding r stages = some e

/-- The unit still issues for an element of this ordinal: no ABORT drain, and in a HALT drain an ordinal below the
faulting one (R92, R97, R183). -/
def StillIssues (s : State) (ord : Nat) : Prop :=
  s.tu.phase ≠ .draining .abort ∧ (s.tu.phase = .draining .halt → ∀ f, s.tu.faulting = some f → ord < f.ord)

/-- Two spans of bytes have a byte in common. -/
def Meet (a : Phys) (n : Nat) (b : Phys) (m : Nat) : Prop := a.toNat < b.toNat + m ∧ b.toNat < a.toNat + n

/-! ## Shared outcomes, spelled out from the rules -/

/-- A tenant whose current record is refused with this reason (R59): a terminal completion and POSTING, or, with
HALT_ON_INVALID on, an interim one and HALTED with reason INVALID. -/
def refusedTenant (k : TenantId) (t : Tenant) (reason : Reason) : Tenant :=
  let interim := tenantCompletion k t .invalid reason true 0 0 0 (windowCursor t) 0
  let terminal := tenantCompletion k t .invalid reason false 0 0 0 (windowCursor t) 0
  if t.haltOnInvalid = true then
    { t with state := .halted, haltReason := some .invalid, cu := { t.cu with pending := some interim } }
  else { t with state := .posting, progress := none, cu := { t.cu with pending := some terminal } }

/-- A tenant that enters WAITING with the WAIT record `r` as its current one: the WAIT is begun in that step with its line,
count, HALT_ON_TIMEOUT and timeout, or refused with BAD_FIELD (R136). -/
def WaitEntered (k : TenantId) (t : Tenant) (r : Record) (t' : Tenant) : Prop :=
  (byteAt r 8 ≤ 3 → 1 ≤ byteAt r 9 → byteAt r 9 ≤ 15 →
    ∃ l : Line, l.val = byteAt r 8 ∧
      t' = { t with
        state := .waiting, tally := 0, wait := .counting l (byteAt r 9) (flagAt r 10 0),
        waitTimer := if halfAt r 12 = 0 then none else some (halfAt r 12) }) ∧
  (3 < byteAt r 8 ∨ byteAt r 9 = 0 ∨ 15 < byteAt r 9 → t' = refusedTenant k t .badField)

/-- What becomes of a tenant that holds the record just taken as its current one (R5, R6, R7, R136). -/
def TakenAs (k : TenantId) (t t' : Tenant) : Prop :=
  (∀ q, t.current = some ⟨q, .failed⟩ →
    t' = { t with state := .halted, haltReason := some .fetchError, cu := { t.cu with
      pending := some (tenantCompletion k t .fetchError .none true 0 0 0 0xFFFFFFFF 0) } }) ∧
  (∀ q r, t.current = some ⟨q, .record r⟩ →
    (kindOf r = none → t' = refusedTenant k t .unknownKind) ∧
    ∀ kd, kindOf r = some kd →
      (isTenantKind kd = false → t' = refusedTenant k t .controlOnly) ∧
      (kd = .wait → WaitEntered k t r t') ∧
      (isTenantKind kd = true → kd ≠ .wait → t' = { t with state := .ready, progress := none }))

/-- The part after a grant whose record was refused (R10, R59). -/
def refusedGrant (s : State) (k : TenantId) (reason : Reason) : State :=
  { setTenant s k (refusedTenant k (getTenant s k) reason) with tu := {} }

/-- The part after a zero-element record that ended OK, with the tenant's tables as `t` has them (R40, R44, R78, R79). -/
def zeroElementDone (s : State) (k : TenantId) (t : Tenant) (aux : Word) : State :=
  let done := tenantCompletion k t .ok .none false 0 0 0 (windowCursor t) aux
  { setTenant s k { t with state := .posting, progress := none, cu := { t.cu with pending := some done } } with tu := {} }

/-- `t` is `s` after the context table took the grant of tenant `k`: RUNNING, the unit's fields as a first grant or as a
continuation sets them, the rotation pointer at the next tenant and no grant in progress (R81, R82, R96). -/
def GrantTaken (s : State) (k : TenantId) (t : State) : Prop :=
  ((getTenant s k).progress = none →
    let unit : TransferUnit :=
      { phase := .issuing, granted := some k, plan := none, nextOrd := 0, done := 0, ended := [], wraps := 0,
        extra := 0, outstanding := [], sliceCounter := 0, sliceSize := (getTenant s k).weight * 256,
        faulting := none }
    t = { setTenant s k { getTenant s k with state := .running } with
      tu := unit, rotation := k + 1, grantInProgress := none }) ∧
  (∀ g q r, (getTenant s k).progress = some g → (getTenant s k).current = some ⟨q, .record r⟩ →
    let unit : TransferUnit :=
      { phase := .issuing, granted := some k, plan := planOf (getTenant s k) r (g.cursorAtStart.getD 0),
        nextOrd := g.done, done := g.done, ended := [], wraps := g.wraps, extra := g.extra, outstanding := [],
        sliceCounter := 0, sliceSize := (getTenant s k).weight * 256, faulting := none }
    t = { setTenant s k { getTenant s k with state := .running, progress := some { g with faultAddr := none } } with
      tu := unit, rotation := k + 1, grantInProgress := none })

/-- The transfer unit after the element `e` is taken up (R83, R85, R86). -/
def takenUp (s : State) (k : TenantId) (p : Plan) (e : Elem) : TransferUnit :=
  let u := { s.tu with outstanding := s.tu.outstanding ++ [e], nextOrd := s.tu.nextOrd + 1,
                       sliceCounter := s.tu.sliceCounter + 1 }
  if u.nextOrd = takeUps p then { u with phase := .draining .finish }
  else if u.sliceCounter < u.sliceSize then u
  else if ∀ j, (getTenant s j).state ≠ .ready then
    { u with sliceCounter := 0, sliceSize := (getTenant s k).weight * 256 }
  else { u with phase := .draining .preempt }

/-- The transfer unit after its first faulting element `f` (R90, R91, R183), with this outstanding set before it. -/
def haltedUnit (u : TransferUnit) (out : List Elem) (f : Faulting) : TransferUnit :=
  { u with phase := .draining .halt, faulting := some f,
           outstanding := out.filter fun e => decide (e.ord < f.ord) || inFlightStage e.stage }

/-- The part with every held transaction whose hold has ended issued, each in its place (R86, R184); a PUT's write to the
window's last element clears the held value (R54). -/
def holdsReleased (k : TenantId) (p : Plan) (s : State) : State :=
  let ended := holdEnded (getTenant s k).segment p s.tu
  let clears : Prop := p.kind = .put ∧
    ∃ e ∈ s.tu.outstanding, e.stage = .writeHeld ∧ ended e = true ∧ isLast p e.ord = true
  let issued := fun e : Elem => if e.stage = .readHeld then { e with stage := .readIssued }
    else { e with stage := .writeIssued }
  { setTenant s k { getTenant s k with
      window := if clears then (getTenant s k).window.map fun w => { w with held := none } else (getTenant s k).window } with
    tu := { s.tu with outstanding := s.tu.outstanding.map fun e => if ended e = true then issued e else e } }

/-- The part after an answer dropped while RESETTING, `s` without the transaction answered: the reset ends with the last
one, and keeps the queue, the stored registers, the timebase and the last T-port answer (R19, R98, R149, R162). -/
def afterDropped (s : State) : State :=
  if mportOutstanding s = 0 then
    { State.reset with
      pending := s.pending, rstAsserted := s.rstAsserted, tport := s.tport, sqCode := s.sqCode, cqCode := s.cqCode,
      base := s.base, draws := s.draws }
  else s

/-- A tenant's wait at a timebase step with these latches (R133, R137 to R139): the timer is decremented; an arrival on the
line counts one, and the count's last one ends the WAIT with OK and the time left in aux; the timer brought to 0 ends it
with TIMEOUT, by HALT_ON_TIMEOUT. Where arrival and expiry meet, `arrivalFirst` says which is taken first. -/
def waitStepped (latches : Lines) (arrivalFirst : Bool) (k : TenantId) (t : Tenant) : Tenant :=
  match t.wait with
  | .stopped => t
  | .counting l count halting =>
    let arrives : Prop := getLine latches l = true
    let left := t.waitTimer.map fun n => n - 1
    let reached : Prop := arrives ∧ t.tally + 1 = count
    if t.waitTimer = some 1 ∧ ¬(reached ∧ arrivalFirst = true) then
      let tally := if arrives ∧ arrivalFirst = true then t.tally + 1 else t.tally
      let comp := fun interim => tenantCompletion k t .timeout .none interim tally 0 0 (windowCursor t) 0
      if halting = true then
        { t with state := .halted, haltReason := some .timeout, wait := .stopped, waitTimer := none, tally := tally,
                 cu := { t.cu with pending := some (comp true) } }
      else
        { t with state := .posting, progress := none, wait := .stopped, waitTimer := none, tally := tally,
                 cu := { t.cu with pending := some (comp false) } }
    else if reached then
      let comp := tenantCompletion k t .ok .none false count 0 0 (windowCursor t) (BitVec.ofNat 32 (left.getD 0))
      { t with state := .posting, progress := none, wait := .stopped, waitTimer := none, tally := count,
               cu := { t.cu with pending := some comp } }
    else { t with waitTimer := left, tally := if arrives then t.tally + 1 else t.tally }

/-- `t` is `s` after one timebase step: the latches clear, every wait and every holdoff timer stepped (R133, R134, R154),
with this order of arrival and expiry for each tenant (R139). -/
def Stepped (s t : State) (arrivalFirst : TenantId → Bool) : Prop :=
  t = { s with tenants := t.tenants, latches := {}, draws := s.draws + 1 } ∧
  ∀ k, getTenant t k = { waitStepped s.latches (arrivalFirst k) k (getTenant s k) with
    holdoffTimer := if (getTenant s k).holdoffTimer = some 1 then none
      else (getTenant s k).holdoffTimer.map fun n => n - 1,
    holdoffExpired := if (getTenant s k).holdoffTimer = some 1 then true else (getTenant s k).holdoffExpired }

/-- A control record that ends in this step with these fields (R164, R165). -/
def controlEnded (s : State) (c : CtlRecord) (status : Status) (reason : Reason) (elements extra : Nat)
    (version : Index) (aux : Nat) : State :=
  let done : Completion :=
    { seq := c.seq, kind := kindByte c.data, tag := recordTag c.data, status := status, reason := reason,
      interim := false, urgent := notifyNow c.data, context := 0, elements := elements, extra := extra,
      cursorAfter := 0xFFFFFFFF, mapVersion := version, wraps := 0, aux := BitVec.ofNat 32 aux }
  let current : CtlRecord := { seq := c.seq, data := c.data, op := .executing }
  { s with control := { s.control with current := some current, cu := { s.control.cu with pending := some done } } }

/-- What RETRY makes of a halted tenant, by its halt reason (R124 to R127): READY again, its WAIT begun afresh, or the
REFETCH of the record's slot, issued or waiting for the read in flight. -/
def Retried (k : TenantId) (t t' : Tenant) : Prop :=
  (t.haltReason = some .absent ∨ t.haltReason = some .noRead ∨ t.haltReason = some .noWrite ∨
    t.haltReason = some .busError → t' = { t with haltReason := none, state := .ready }) ∧
  (t.haltReason = some .timeout → ∀ q r, t.current = some ⟨q, .record r⟩ →
    WaitEntered k { t with haltReason := none } r t') ∧
  (t.haltReason = some .fetchError ∨ t.haltReason = some .invalid → ∀ e, t.current = some e →
    let slot := e.seq.toNat % (16 * 2 ^ t.sqCode)
    let read : FetchRead :=
      { kind := .refetch, seq := e.seq, addr := t.sqBase + BitVec.ofNat 40 (slot * 64), discard := false }
    (t.chan.inFlight = none →
      t' = { t with
        recovery := some .refetchOutstanding,
        chan := { t.chan with refetchWaiting := false, inFlight := some read } }) ∧
    (t.chan.inFlight ≠ none →
      t' = { t with recovery := some .refetchOutstanding, chan := { t.chan with refetchWaiting := true } }))

/-- What SKIP makes of a halted tenant (R128, R30): POSTING with a SKIPPED completion, whose counts follow the halt reason;
after a FETCH_ERROR the fetch stop is cleared unless a failed entry is queued. -/
def skippedTenant (k : TenantId) (t : Tenant) : Tenant :=
  let counts : Nat × Nat × Nat := match t.haltReason, t.progress with
    | some .timeout, _ => (t.tally, 0, 0)
    | some .absent, some p | some .noRead, some p | some .noWrite, some p | some .busError, some p =>
      (p.done, p.extra, p.wraps)
    | _, _ => (0, 0, 0)
  let done := tenantCompletion k t .skipped .none false counts.1 counts.2.1 counts.2.2 (windowCursor t) 0
  { t with
    state := .posting, haltReason := none, progress := none,
    cu := { t.cu with pending := some done },
    chan := { t.chan with
      stop := if t.haltReason = some .fetchError then t.chan.stop && t.chan.queue.any fun e => e.body == .failed
        else t.chan.stop } }

/-- A completion unit after the post of `c` in a ring of this size code is acknowledged (R145, R155). -/
def postedUnit (cu : CompletionUnit) (code : Nat) (c : Completion) : CompletionUnit :=
  { cu with
    writeIndex := cu.writeIndex + 1,
    lap := if (cu.writeIndex + 1).toNat % (16 * 2 ^ code) = 0 then !cu.lap else cu.lap,
    pending := none, post := none,
    urgent := cu.urgent || c.urgent, lastUrgent := if c.urgent then cu.writeIndex else cu.lastUrgent }

/-- A tenant after its post of `c` is acknowledged, before the record boundary: the holdoff timer is loaded when the ring
was empty (R145, R154). -/
def postedTenant (t : Tenant) (c : Completion) : Tenant :=
  { t with
    cu := postedUnit t.cu t.cqCode c,
    holdoffTimer := if t.cu.writeIndex = t.cu.consumer ∧ t.holdoff ≠ 0 then some t.holdoff else t.holdoffTimer }

/-- A tenant after its detach: the detached values, and a read or post in flight, marked (R20, R26, R142). -/
def detachedAfter (t : Tenant) : Tenant :=
  { ({} : Tenant) with
    chan := { ({} : Channel) with inFlight := t.chan.inFlight.map fun r => { r with discard := true } },
    cu := { ({} : CompletionUnit) with post := t.cu.post.map fun p => { p with discard := true } } }

end Sys2Proof.Machine
end

