-- ==== Sys2Proof/Certificates/Slice0/Obligations.lean ====
section
/-! DEFINITION. The statements for the provers. Each `Obligations.<Name>` is a proposition about the model; its docstring
names the part of the spec it formalises. -/

open Sys2Proof Sys2Proof.Machine

/-! ## The whole part -/

/-- The model's queue: a step takes the command at the front and carries it out with the queue's rest. -/
def Obligations.StepRunsTheFrontCommand : Prop :=
  ∀ (c : Instr) (rest : List Instr) (s : State), s.pending = c :: rest → step s = exec c { s with pending := rest }

/-- Every command, whatever its operands and the state, has a next state (no fault, no refusal), and leaves the queue. -/
def Obligations.EveryCommandCompletesAndKeepsTheQueue : Prop :=
  ∀ (c : Instr) (s : State), ∃ t, exec c s = .next t ∧ t.pending = s.pending

/-- The state after reset is sound. -/
def Obligations.ResetIsSound : Prop := Sound State.reset

/-- Sections 5.1, 5.2 and 5.4: at most one tenant is RUNNING or DETACHING, and the transfer unit holds its record and no
other; the unit is FREE exactly while no tenant is granted, and a grant request is in progress only then; a recorded
faulting element has a fault's status. -/
def Obligations.StepKeepsTheGrant : Prop := ∀ s t : State, Sound s → step s = .next t → GrantInv t

/-- Sections 1.3, 1.7, 7.3 and 8.3: the current record, the progress record, the halt reason, the pending completion, the
recovery step and the wait state are present in the states the tables say, and a DETACHED tenant holds the detached
values. -/
def Obligations.StepKeepsTheTenantTable : Prop := ∀ s t : State, Sound s → step s = .next t → TenantTableInv t

/-- Sections 1.8, 1.9 and 10.1: in OFF, and under RST_N, every context holds its detached values, no grant
is in progress and nothing is outstanding. The detached values of the model's own fields are its choice (log 21). -/
def Obligations.StepKeepsOff : Prop := ∀ s t : State, Sound s → step s = .next t → OffInv t

/-- Sections 2.2, 9.4 and 10.1: producer minus fetch of an attached tenant, and write minus consumer of every context,
stay within the ring; size codes stay 0 to 6 and bases aligned. Of context 0, producer minus fetch is not claimed
(log 26). -/
def Obligations.StepKeepsTheRings : Prop := ∀ s t : State, Sound s → step s = .next t → RingInv t

/-- Sections 2.3, 2.4, 3.1 to 3.4, 4.2, 5.2 to 5.6 and 12.1: at most four prefetched records with the one being read, at
most eight places; the ended ordinals above the acknowledged prefix, the outstanding ones and the faulting one in their
order, wraps at most 65535, no element held above a recorded fault or in an abort; the granted record's plan what its
tenant's record, surfaces and window make of it, and the cursor where the acknowledged in-window elements put it; every
surface as its checks left it, every window within its surface with its cursor at most the area, and a stopped record ready
to continue. The faulting element of an ABORT drain is absent by the model's choice (log 27). -/
def Obligations.StepKeepsTheCapacities : Prop :=
  ∀ s t : State, Sound s → step s = .next t → CapacityInv t ∧ ElementsInv t

/-- Section 6.1: every map segment stays in its canonical form, and a pending operation fits its segment. -/
def Obligations.StepKeepsTheMaps : Prop := ∀ s t : State, Sound s → step s = .next t → MapInv t

/-- Section 6.4: whatever the command, a tenant whose map version or segment it changes holds no run after it: it is not
RUNNING, not DETACHING and not preempted. -/
def Obligations.MapChangesOnlyWithoutARun : Prop :=
  ∀ (c : Instr) (s t : State) (k : TenantId), exec c s = .next t →
    ((getTenant t k).mapVersion ≠ (getTenant s k).mapVersion ∨ (getTenant t k).segment ≠ (getTenant s k).segment) →
    (getTenant t k).state ≠ .running ∧ (getTenant t k).state ≠ .detaching ∧
      ((getTenant t k).state = .ready →
        ∀ p, (getTenant t k).progress = some p → p.cause ≠ .preempted)

/-! ## Values, walks, translation -/

/-- Section 4.2 (R61 to R63): the widening and the narrowing conversion, bit by bit, for every size change and mode, with
the values of the rules' tables; and for equal sizes, whatever the mode, the value unchanged. Bits of the word above the
source size are ignored, by the model's choice (log 16). -/
def Obligations.WideningAndNarrowing : Prop :=
  (∀ (v : Word) (s d i : Nat), (s = 1 ∧ d = 2) ∨ (s = 1 ∧ d = 4) ∨ (s = 2 ∧ d = 4) → i < 32 →
    (convert modeZero s d v).getLsbD i = (decide (i < 8 * s) && v.getLsbD i) ∧
    (convert modeSign s d v).getLsbD i =
      (decide (i < 8 * d) && (if i < 8 * s then v.getLsbD i else v.getLsbD (8 * s - 1))) ∧
    (convert modeReplicate s d v).getLsbD i = (decide (i < 8 * d) && v.getLsbD (i % (8 * s)))) ∧
  (∀ (v : Word) (s d i : Nat), (s = 2 ∧ d = 1) ∨ (s = 4 ∧ d = 1) ∨ (s = 4 ∧ d = 2) → i < 32 →
    (convert modeLow s d v).getLsbD i = (decide (i < 8 * d) && v.getLsbD i) ∧
    (convert modeHigh s d v).getLsbD i = (decide (i < 8 * d) && v.getLsbD (8 * (s - d) + i))) ∧
  (∀ (mode n : Nat) (v : Word), n = 1 ∨ n = 2 ∨ n = 4 → v.toNat < 2 ^ (8 * n) → convert mode n n v = v) ∧
  (∀ (mode n : Nat) (v : Word) (i : Nat), n = 1 ∨ n = 2 ∨ n = 4 → i < 32 →
    (convert mode n n v).getLsbD i = (decide (i < 8 * n) && v.getLsbD i)) ∧
  convert modeZero 1 2 0x8A = 0x008A ∧ convert modeSign 1 2 0x8A = 0xFF8A ∧ convert modeReplicate 1 2 0x8A = 0x8A8A ∧
  convert modeZero 1 4 0x8A = 0x8A ∧ convert modeSign 1 4 0x8A = 0xFFFFFF8A ∧
  convert modeReplicate 1 4 0x8A = 0x8A8A8A8A ∧
  convert modeZero 1 4 0x3C = 0x3C ∧ convert modeSign 1 4 0x3C = 0x3C ∧ convert modeReplicate 1 4 0x3C = 0x3C3C3C3C ∧
  convert modeZero 2 4 0xC412 = 0xC412 ∧ convert modeSign 2 4 0xC412 = 0xFFFFC412 ∧
  convert modeReplicate 2 4 0xC412 = 0xC412C412 ∧
  convert modeLow 2 1 0xC412 = 0x12 ∧ convert modeHigh 2 1 0xC412 = 0xC4 ∧
  convert modeLow 4 1 0x12345678 = 0x78 ∧ convert modeHigh 4 1 0x12345678 = 0x12 ∧
  convert modeLow 4 2 0x12345678 = 0x5678 ∧ convert modeHigh 4 2 0x12345678 = 0x1234

/-- R45: the column and row of every ordinal, each position of the rectangle reached by exactly one ordinal, the first
and last corners, and the window's walk as the walk of its rectangle. -/
def Obligations.WalkVisitsEachPositionOnce : Prop :=
  (∀ (w : Walk) (p : Nat), 0 < w.width → 0 < w.height → p < w.width * w.height →
    walkX w p =
      (let c := match w.order with | .row => p % w.width | .column => p / w.height
       if w.xrev then w.x0 + w.width - 1 - c else w.x0 + c) ∧
    walkY w p =
      (let r := match w.order with | .row => p / w.width | .column => p % w.height
       if w.yrev then w.y0 + w.height - 1 - r else w.y0 + r)) ∧
  (∀ (w : Walk), 0 < w.width → 0 < w.height →
    (∀ x y, w.x0 ≤ x → x < w.x0 + w.width → w.y0 ≤ y → y < w.y0 + w.height →
      ∃ p, (p < w.width * w.height ∧ walkX w p = x ∧ walkY w p = y) ∧
        ∀ q, q < w.width * w.height → walkX w q = x → walkY w q = y → q = p) ∧
    walkX w 0 = (if w.xrev then w.x0 + w.width - 1 else w.x0) ∧
    walkY w 0 = (if w.yrev then w.y0 + w.height - 1 else w.y0) ∧
    walkX w (w.width * w.height - 1) = (if w.xrev then w.x0 else w.x0 + w.width - 1) ∧
    walkY w (w.width * w.height - 1) = (if w.yrev then w.y0 else w.y0 + w.height - 1)) ∧
  (∀ (f : Surface) (w : Window),
    (windowWalk f w).x0 = w.x0 ∧ (windowWalk f w).y0 = w.y0 ∧ (windowWalk f w).width = w.x1 - w.x0 + 1 ∧
    (windowWalk f w).height = w.y1 - w.y0 + 1 ∧ (windowWalk f w).order = w.order ∧ (windowWalk f w).xrev = w.xrev ∧
    (windowWalk f w).yrev = w.yrev ∧ windowArea w = (windowWalk f w).width * (windowWalk f w).height)

/-- Section 6.2: the translation of a logical address through a segment, V checked before R and W, and the physical
address within the page the entry names. -/
def Obligations.TranslationChecksAndAddress : Prop :=
  ∀ (seg : Segment) (a : Nat), a < 8388608 →
    ((segGet seg (a / 16384)).v = false →
      translateAccess seg a .read = .fault .faultAbsent ∧ translateAccess seg a .write = .fault .faultAbsent) ∧
    ((segGet seg (a / 16384)).v = true →
      ((segGet seg (a / 16384)).r = false → translateAccess seg a .read = .fault .faultNoRead) ∧
      ((segGet seg (a / 16384)).w = false → translateAccess seg a .write = .fault .faultNoWrite) ∧
      ∃ b : Phys, b.toNat = (segGet seg (a / 16384)).ppn.toNat * 16384 + a % 16384 ∧
        ((segGet seg (a / 16384)).r = true → translateAccess seg a .read = .phys b) ∧
        ((segGet seg (a / 16384)).w = true → translateAccess seg a .write = .phys b))

/-- R115: two entries that name one physical page, one with R set and one with W clear: the read through the first
succeeds at the very bytes at which the write through the second faults with FAULT_NO_WRITE. -/
def Obligations.AliasedEntriesAreCheckedApart : Prop :=
  ∀ (seg : Segment) (p q o : Nat), o < 16384 →
    (segGet seg p).v = true → (segGet seg q).v = true → (segGet seg p).ppn = (segGet seg q).ppn →
    (segGet seg p).r = true → (segGet seg q).w = false →
    ∃ b : Phys, b.toNat = (segGet seg q).ppn.toNat * 16384 + o ∧
      translateAccess seg (p * 16384 + o) .read = .phys b ∧
      translateAccess seg (q * 16384 + o) .write = .fault .faultNoWrite

/-- Section 11.2: the entry words of a MAP_LOAD, the fields stored, the word a PROBE reports, the section's examples,
and the entries that MAP_CLEAR and the resets leave. -/
def Obligations.MapEntryWordLayout : Prop :=
  (∀ (r : Record) (n i : Nat), i < n →
    (loadEntries r n)[i]? = some (entryOfWord (r.extractLsb' (8 * (16 + 4 * i)) 32))) ∧
  (∀ w : Word, (entryOfWord w).ppn = w.extractLsb' 0 26 ∧ (entryOfWord w).r = w.getLsbD 29 ∧
    (entryOfWord w).w = w.getLsbD 30 ∧ (entryOfWord w).v = w.getLsbD 31) ∧
  (∀ (w : Word) (i : Nat), i < 32 →
    (wordOfEntry (entryOfWord w)).getLsbD i = (w.getLsbD i && !(decide (26 ≤ i) && decide (i ≤ 28)))) ∧
  wordOfEntry (entryOfWord 0x80000000) = 0x80000000 ∧ entryOfWord 0x80000000 = ⟨true, false, false, 0⟩ ∧
  entryOfWord 0x1C000005 = ⟨false, false, false, 5⟩ ∧ wordOfEntry (entryOfWord 0x1C000005) = 5 ∧
  (∀ (seg : Segment) (first count p : Nat), segmentWf seg = true → first + count ≤ 512 → first ≤ p →
    p < first + count → wordOfEntry (segGet (mapOpSegment (.clear first count) seg) p) = 0) ∧
  (∀ (s : State) (k : TenantId) (p : Nat), wordOfEntry (segGet (getTenant State.reset k).segment p) = 0 ∧
    wordOfEntry (segGet (getTenant (resetBlocks s) k).segment p) = 0 ∧
    wordOfEntry (segGet (detachTenant (getTenant s k)).segment p) = 0)

/-- Sections 11.1 to 11.5, 7.5 and 9.2: the fields of a record at their offsets; the codes of kinds, statuses, reasons,
states, halt reasons, alert causes and engine states, and the halt reason an interim status names; what a tenant completion
takes from its current record, 0 and 0 for a failed entry; every field of a completion, and of a QUERY report, at its
offset. -/
def Obligations.CompletionAndReportLayout : Prop :=
  (∀ (r : Record) (o b : Nat),
    byteAt r o = (r.extractLsb' (8 * o) 8).toNat ∧ halfAt r o = (r.extractLsb' (8 * o) 16).toNat ∧
    wordAt r o = r.extractLsb' (8 * o) 32 ∧ longAt r o = (r.extractLsb' (8 * o) 64).toNat ∧
    flagAt r o b = r.getLsbD (8 * o + b) ∧
    kindByte r = r.extractLsb' 0 8 ∧ notifyNow r = r.getLsbD 8 ∧ recordTag r = r.extractLsb' 32 32 ∧
    kindOf r = kindOfCode (byteAt r 0)) ∧
  (∀ (k : TenantId) (t : Tenant) (status : Status) (reason : Reason) (interim : Bool) (elements extra wraps : Nat)
      (cursor aux : Word),
    let built := fun (seq : Index) (kind : BitVec 8) (tag : Word) (urgent : Bool) => ({
      seq := seq, kind := kind, tag := tag, status := status, reason := reason, interim := interim, urgent := urgent,
      context := k.val + 1, elements := elements, extra := extra, cursorAfter := cursor, mapVersion := t.mapVersion,
      wraps := wraps, aux := aux } : Completion)
    (∀ q r, t.current = some ⟨q, .record r⟩ →
      tenantCompletion k t status reason interim elements extra wraps cursor aux =
        built q (r.extractLsb' 0 8) (r.extractLsb' 32 32) (interim || r.getLsbD 8)) ∧
    (∀ q, t.current = some ⟨q, .failed⟩ →
      tenantCompletion k t status reason interim elements extra wraps cursor aux = built q 0 0 interim)) ∧
  (∀ (n : Nat) (kd : Kind), kindOfCode n = some kd ↔ (n, kd) ∈
    [(0x01, Kind.surface), (0x02, .window), (0x03, .put), (0x04, .get), (0x05, .copy), (0x06, .fill), (0x07, .wait),
     (0x08, .mark), (0x09, .probe), (0x21, .attach), (0x22, .detach), (0x23, .drain), (0x24, .resume),
     (0x25, .mapLoad), (0x26, .mapClear), (0x27, .setService), (0x28, .query), (0x29, .note)]) ∧
  (∀ (n : Nat) (kd : Kind), kindOfCode n = some kd → (isTenantKind kd = true ↔ n ≤ 9)) ∧
  [Status.ok, .invalid, .faultAbsent, .faultNoRead, .faultNoWrite, .busError, .fetchError, .timeout, .skipped,
    .wrongState, .haltedTarget].map statusCode = [0, 1, 2, 3, 4, 5, 6, 7, 8, 9, 10] ∧
  [Reason.none, .unknownKind, .badField, .noSurface, .notFit, .align, .noWindow, .controlOnly, .tenantOnly, .badTarget,
    .read, .write].map reasonCode = [0, 1, 2, 3, 4, 5, 6, 7, 8, 9, 1, 2] ∧
  [TState.detached, .idle, .ready, .running, .waiting, .posting, .halted, .paused, .detaching].map stateCode =
    [0, 1, 2, 3, 4, 5, 6, 7, 8] ∧
  [none, some HaltReason.absent, some .noRead, some .noWrite, some .busError, some .fetchError, some .invalid,
    some .timeout, some .postError].map haltReasonCode = [0, 1, 2, 3, 4, 5, 6, 7, 8] ∧
  [none, some Alert.index, some .post].map alertCode = [0, 1, 2] ∧
  [Engine.off, .on, .ctlStopped, .resetting].map engineCode = [0, 1, 2, 3] ∧
  [Status.faultAbsent, .faultNoRead, .faultNoWrite, .busError, .fetchError, .invalid, .timeout].map haltReasonOf =
    [some .absent, some .noRead, some .noWrite, some .busError, some .fetchError, some .invalid, some .timeout] ∧
  (∀ st : Status, st = .ok ∨ st = .skipped ∨ st = .wrongState ∨ st = .haltedTarget → haltReasonOf st = none) ∧
  (∀ (lap : Bool) (c : Completion),
    (encodeCompletion lap c).extractLsb' 0 16 = c.seq ∧
    (encodeCompletion lap c).extractLsb' 16 8 = c.kind ∧
    (encodeCompletion lap c).extractLsb' 24 8 = BitVec.ofNat 8 (statusCode c.status) ∧
    (encodeCompletion lap c).extractLsb' 32 8 = BitVec.ofNat 8 (reasonCode c.reason) ∧
    (encodeCompletion lap c).getLsbD 40 = lap ∧
    (encodeCompletion lap c).getLsbD 41 = c.interim ∧
    (encodeCompletion lap c).getLsbD 42 = c.urgent ∧
    (encodeCompletion lap c).extractLsb' 43 5 = 0 ∧
    (encodeCompletion lap c).extractLsb' 48 8 = BitVec.ofNat 8 c.context ∧
    (encodeCompletion lap c).extractLsb' 56 8 = 0 ∧
    (encodeCompletion lap c).extractLsb' 64 32 = c.tag ∧
    (encodeCompletion lap c).extractLsb' 96 32 = BitVec.ofNat 32 c.elements ∧
    (encodeCompletion lap c).extractLsb' 128 32 = BitVec.ofNat 32 c.extra ∧
    (encodeCompletion lap c).extractLsb' 160 32 = c.cursorAfter ∧
    (encodeCompletion lap c).extractLsb' 192 16 = c.mapVersion ∧
    (encodeCompletion lap c).extractLsb' 208 16 = BitVec.ofNat 16 c.wraps ∧
    (encodeCompletion lap c).extractLsb' 224 32 = c.aux) ∧
  (∀ r : Report,
    (encodeReport r).extractLsb' 0 8 = BitVec.ofNat 8 r.state ∧
    (encodeReport r).extractLsb' 8 8 = BitVec.ofNat 8 r.haltReason ∧
    (encodeReport r).extractLsb' 16 8 = BitVec.ofNat 8 r.alert ∧
    (encodeReport r).getLsbD 24 = r.drainRequested ∧
    (encodeReport r).getLsbD 25 = r.currentSeq.isSome ∧
    (encodeReport r).getLsbD 26 = r.progress.isSome ∧
    (encodeReport r).extractLsb' 27 5 = 0 ∧
    (encodeReport r).extractLsb' 32 16 = r.producer ∧
    (encodeReport r).extractLsb' 48 16 = r.fetch ∧
    (encodeReport r).extractLsb' 64 16 = r.writeIndex ∧
    (encodeReport r).extractLsb' 80 16 = r.consumer ∧
    (encodeReport r).extractLsb' 96 8 = BitVec.ofNat 8 r.prefetch ∧
    (encodeReport r).extractLsb' 104 8 = BitVec.ofNat 8 r.weight ∧
    (encodeReport r).extractLsb' 112 16 = r.mapVersion ∧
    (encodeReport r).extractLsb' 128 16 = r.currentSeq.getD 0 ∧
    (encodeReport r).extractLsb' 144 16 = 0 ∧
    (encodeReport r).extractLsb' 160 32 = BitVec.ofNat 32 (r.progress.getD 0) ∧
    (encodeReport r).extractLsb' 192 32 = r.cursor ∧
    (encodeReport r).extractLsb' 224 32 = BitVec.ofNat 32 r.area ∧
    (encodeReport r).extractLsb' 256 256 = 0)

/-! ## The T-port -/

/-- Section 11.5.1: the write that a well-formed register-write command is decodes to that command: offset, size and
every bit of the written word; and the offset of each word of the window. -/
def Obligations.RegisterWritesDecodeToTheirCommands : Prop :=
  (∀ i : Instr, i.wellFormed = true → isRegisterWrite i = true →
    ∃ offset w, encodeTPortWrite i = some (offset, 4, w) ∧ accessAligned offset 4 = true ∧
      decodeTPortWrite offset 4 w = i) ∧
  ∀ w : Word,
    (∀ i : Instr, i = .enable w ∨ i = .softReset w ∨ i = .sizeCodeStore w → encodeTPortWrite i = some (0x04, 4, w)) ∧
    encodeTPortWrite (.controlRingBaseWrite .low w) = some (0x08, 4, w) ∧
    encodeTPortWrite (.controlRingBaseWrite .high w) = some (0x0C, 4, w) ∧
    encodeTPortWrite (.alertWordWrite w) = some (0x10, 4, w) ∧
    encodeTPortWrite (.producerIndexWrite .control w) = some (0x20, 4, w) ∧
    encodeTPortWrite (.consumerIndexWrite .control w) = some (0x24, 4, w) ∧
    ∀ k : TenantId, ∃ p c : BitVec 8, p.toNat = 0x28 + 8 * k.val ∧ c.toNat = 0x2C + 8 * k.val ∧
      encodeTPortWrite (.producerIndexWrite (.tenant k) w) = some (p, 4, w) ∧
      encodeTPortWrite (.consumerIndexWrite (.tenant k) w) = some (c, 4, w)

/-- Sections 11.5.1 and 1.2: what a 4-byte read of each word of the register window returns, in every engine state,
and the error responses. -/
def Obligations.RegisterReads : Prop :=
  (∀ s : State, s.rstAsserted = false →
    readRegister s 0x00 4 = .data 0x5E080100 ∧
    (∃ w, readRegister s 0x04 4 = .data w ∧ w.extractLsb' 0 4 = 0 ∧ w.extractLsb' 4 3 = s.sqCode ∧
      w.getLsbD 7 = false ∧ w.extractLsb' 8 3 = s.cqCode ∧ w.extractLsb' 11 5 = 0 ∧
      w.extractLsb' 16 2 = BitVec.ofNat 2 (engineCode s.engine) ∧ w.extractLsb' 18 14 = 0) ∧
    readRegister s 0x08 4 = .data (s.base.extractLsb' 0 32) ∧
    readRegister s 0x0C 4 = .data ((s.base.extractLsb' 32 8).setWidth 32) ∧
    (∃ w, readRegister s 0x10 4 = .data w ∧
      w.getLsbD 0 = (alertOf s .control).isSome ∧ w.getLsbD 8 = (alertOf s .control == some .post) ∧
      (∀ k : TenantId, w.getLsbD (k.val + 1) = (alertOf s (.tenant k)).isSome ∧
        w.getLsbD (9 + k.val) = (alertOf s (.tenant k) == some .post)) ∧
      w.extractLsb' 16 16 = 0) ∧
    readRegister s 0x20 4 = .data (s.control.producer.setWidth 32) ∧
    readRegister s 0x24 4 = .data (s.control.cu.consumer.setWidth 32) ∧
    (∀ k : TenantId,
      readRegister s (BitVec.ofNat 8 (0x28 + 8 * k.val)) 4 = .data ((getTenant s k).producer.setWidth 32) ∧
      readRegister s (BitVec.ofNat 8 (0x2C + 8 * k.val)) 4 = .data ((getTenant s k).cu.consumer.setWidth 32)) ∧
    (∀ o : BitVec 8, o.toNat % 4 = 0 → (0x14 ≤ o.toNat ∧ o.toNat < 0x20) ∨ 0x60 ≤ o.toNat →
      readRegister s o 4 = .data 0)) ∧
  (∀ (s : State) (o : BitVec 8) (n : Nat), s.rstAsserted = true ∨ n ≠ 4 ∨ o.toNat % 4 ≠ 0 →
    readRegister s o n = .error)

/-- R182, with the engine states in which the write is taken: the two halves of the control-ring base, what each leaves,
what reads return, and that ENABLE latches the base as the halves then hold it while a later write leaves the latch. The
answer kept in `tport` is the model's own field (log 10). -/
def Obligations.ControlRingBaseHalves : Prop :=
  (∀ (s : State) (w : Word), hostTaken s →
    ∃ b : Phys, exec (.controlRingBaseWrite .low w) s = .next { s with tport := some .ok, base := b } ∧
      b.extractLsb' 6 26 = w.extractLsb' 6 26 ∧ b.extractLsb' 32 8 = s.base.extractLsb' 32 8 ∧
      b.extractLsb' 0 6 = 0) ∧
  (∀ (s : State) (w : Word), hostTaken s →
    ∃ b : Phys, exec (.controlRingBaseWrite .high w) s = .next { s with tport := some .ok, base := b } ∧
      b.extractLsb' 32 8 = w.extractLsb' 0 8 ∧ b.extractLsb' 6 26 = s.base.extractLsb' 6 26 ∧
      b.extractLsb' 0 6 = 0) ∧
  (∀ (s : State) (h : Half) (w : Word), s.rstAsserted = false → s.engine = .resetting →
    exec (.controlRingBaseWrite h w) s = .next { s with tport := some .ok }) ∧
  (∀ (s t : State) (w : Word), s.rstAsserted = false → s.engine = .off → exec (.enable w) s = .next t →
    t.control.sqBase = s.base ∧
    ∀ (u : State) (h : Half) (w' : Word), exec (.controlRingBaseWrite h w') t = .next u →
      u.control.sqBase = s.base) ∧
  (∀ s : State, s.rstAsserted = false →
    readRegister s 0x08 4 = .data (s.base.extractLsb' 0 32) ∧
    readRegister s 0x0C 4 = .data ((s.base.extractLsb' 32 8).setWidth 32))

/-- Section 2.2, PRODUCER_INDEX_WRITE: the check against the fetch index and the ring size, the taken write, the
refusal with its INDEX alert, and the check and refusals of context 0. -/
def Obligations.ProducerIndexWrites : Prop :=
  ∀ (s : State) (w : Word), hostTaken s →
    (∀ k, attached (getTenant s k) = true →
      (w.extractLsb' 0 16 - (getTenant s k).chan.fetchIndex).toNat ≤ 16 * 2 ^ (getTenant s k).sqCode →
      exec (.producerIndexWrite (.tenant k) w) s =
        .next (setTenant { s with tport := some .ok } k { getTenant s k with producer := w.extractLsb' 0 16 })) ∧
    (∀ k, attached (getTenant s k) = false ∨
        16 * 2 ^ (getTenant s k).sqCode < (w.extractLsb' 0 16 - (getTenant s k).chan.fetchIndex).toNat →
      exec (.producerIndexWrite (.tenant k) w) s =
        .next (setTenant { s with tport := some .ok } k { getTenant s k with
          cu := { (getTenant s k).cu with
            alert := some (if (getTenant s k).cu.alert = some .post then .post else .index) } })) ∧
    (serving s = true →
      (w.extractLsb' 0 16 - (match s.control.inFlight with | some r => r.seq | none => s.control.fetchIndex)).toNat ≤
        16 * 2 ^ s.control.sqCode →
      exec (.producerIndexWrite .control w) s =
        .next { s with tport := some .ok, control := { s.control with producer := w.extractLsb' 0 16 } }) ∧
    (serving s = true →
      16 * 2 ^ s.control.sqCode <
        (w.extractLsb' 0 16 - (match s.control.inFlight with | some r => r.seq | none => s.control.fetchIndex)).toNat →
      exec (.producerIndexWrite .control w) s =
        .next { s with tport := some .ok, control := { s.control with
          cu := { s.control.cu with
            alert := some (if s.control.cu.alert = some .post then .post else .index) } } }) ∧
    (s.engine = .off → exec (.producerIndexWrite .control w) s = .next { s with tport := some .ok })

/-- Sections 9.4 and 9.6, CONSUMER_INDEX_WRITE: the check, the taken write with its effects on the urgent flag and the
holdoff, the post it lets go, the write equal to the old index, and the refusals. -/
def Obligations.ConsumerIndexWrites : Prop :=
  ∀ (s : State) (w : Word), hostTaken s →
    (∀ k, attached (getTenant s k) = true → serving s = true →
      w.extractLsb' 0 16 ≠ (getTenant s k).cu.consumer →
      (w.extractLsb' 0 16 - (getTenant s k).cu.consumer).toNat ≤
        ((getTenant s k).cu.writeIndex - (getTenant s k).cu.consumer).toNat →
      exec (.consumerIndexWrite (.tenant k) w) s =
        .next (setTenant { s with tport := some .ok } k (tryPostTenant { getTenant s k with
          cu := { (getTenant s k).cu with
            consumer := w.extractLsb' 0 16,
            urgent := if (getTenant s k).cu.writeIndex = w.extractLsb' 0 16 ∨
                ((getTenant s k).cu.lastUrgent - (getTenant s k).cu.consumer).toNat <
                  (w.extractLsb' 0 16 - (getTenant s k).cu.consumer).toNat
              then false else (getTenant s k).cu.urgent },
          holdoffTimer := if (getTenant s k).cu.writeIndex = w.extractLsb' 0 16 then none
            else (getTenant s k).holdoffTimer,
          holdoffExpired := if (getTenant s k).cu.writeIndex = w.extractLsb' 0 16 then false
            else (getTenant s k).holdoffExpired }))) ∧
    (∀ k, attached (getTenant s k) = true → w.extractLsb' 0 16 = (getTenant s k).cu.consumer →
      exec (.consumerIndexWrite (.tenant k) w) s = .next { s with tport := some .ok }) ∧
    (∀ k, attached (getTenant s k) = false ∨
        ((getTenant s k).cu.writeIndex - (getTenant s k).cu.consumer).toNat <
          (w.extractLsb' 0 16 - (getTenant s k).cu.consumer).toNat →
      exec (.consumerIndexWrite (.tenant k) w) s =
        .next (setTenant { s with tport := some .ok } k { getTenant s k with
          cu := { (getTenant s k).cu with
            alert := some (if (getTenant s k).cu.alert = some .post then .post else .index) } })) ∧
    (serving s = true → w.extractLsb' 0 16 ≠ s.control.cu.consumer →
      (w.extractLsb' 0 16 - s.control.cu.consumer).toNat ≤
        (s.control.cu.writeIndex - s.control.cu.consumer).toNat →
      exec (.consumerIndexWrite .control w) s =
        .next { s with tport := some .ok, control := tryPostControl { s.control with
          cu := { s.control.cu with
            consumer := w.extractLsb' 0 16,
            urgent := if s.control.cu.writeIndex = w.extractLsb' 0 16 ∨
                (s.control.cu.lastUrgent - s.control.cu.consumer).toNat <
                  (w.extractLsb' 0 16 - s.control.cu.consumer).toNat
              then false else s.control.cu.urgent } } }) ∧
    (serving s = true → w.extractLsb' 0 16 = s.control.cu.consumer →
      exec (.consumerIndexWrite .control w) s = .next { s with tport := some .ok }) ∧
    (serving s = true →
      (s.control.cu.writeIndex - s.control.cu.consumer).toNat <
        (w.extractLsb' 0 16 - s.control.cu.consumer).toNat →
      exec (.consumerIndexWrite .control w) s =
        .next { s with tport := some .ok, control := { s.control with
          cu := { s.control.cu with
            alert := some (if s.control.cu.alert = some .post then .post else .index) } } }) ∧
    (s.engine = .off → exec (.consumerIndexWrite .control w) s = .next { s with tport := some .ok })

/-- Section 9.5, ALERT_WORD_WRITE: each context whose bit is written with one loses its cause; nothing else changes. -/
def Obligations.AlertWordWriteClears : Prop :=
  ∀ (s : State) (w : Word), hostTaken s →
    ∃ t, exec (.alertWordWrite w) s = .next t ∧
      t = { s with
        tport := some .ok, tenants := t.tenants,
        control := { s.control with
          cu := { s.control.cu with alert := if w.getLsbD 0 then none else s.control.cu.alert } } } ∧
      ∀ k, getTenant t k = { getTenant s k with
        cu := { (getTenant s k).cu with
          alert := if w.getLsbD (k.val + 1) then none else (getTenant s k).cu.alert } }

/-- Sections 10.1, 10.2 and 2.8, ENABLE and SIZE_CODE_STORE: the size codes stored, the latch in OFF, no effect on the
state in ON, and every return from CTL_STOPPED: the kept entry taken when no record is current, and refused by its kind
byte, the pending completion written again, the control read issued. A record taken is begun by its own command (log 2);
the reissues come in this step (log 23). -/
def Obligations.EnableAndSizeCodes : Prop :=
  ∀ (s : State) (w : Word) (sq cq : BitVec 3), hostTaken s →
    sq = (if w.extractLsb' 4 3 = 7 then s.sqCode else w.extractLsb' 4 3) →
    cq = (if w.extractLsb' 8 3 = 7 then s.cqCode else w.extractLsb' 8 3) →
    exec (.sizeCodeStore w) s = .next { s with tport := some .ok, sqCode := sq, cqCode := cq } ∧
    (s.engine = .off → exec (.enable w) s = .next { s with
      tport := some .ok, sqCode := sq, cqCode := cq, engine := .on,
      control := { s.control with
        sqBase := s.base, sqCode := sq.toNat,
        cqBase := s.base + BitVec.ofNat 40 (16 * 2 ^ sq.toNat * 64), cqCode := cq.toNat,
        producer := 0, fetchIndex := 0,
        cu := { s.control.cu with writeIndex := 0, consumer := 0, lap := true } } }) ∧
    (s.engine = .on → exec (.enable w) s = .next { s with tport := some .ok, sqCode := sq, cqCode := cq }) ∧
    (s.engine = .ctlStopped → ∀ (entry : Option CtlEntry) (current : Option CtlRecord) (pending : Option Completion)
        (post : Option Post),
      (s.control.current ≠ none ∨ s.control.entry = none →
        entry = s.control.entry ∧ current = s.control.current ∧ pending = s.control.cu.pending) →
      (∀ e, s.control.current = none → s.control.entry = some e →
        let begun : CtlRecord := { seq := e.seq, data := e.data, op := .executing }
        entry = none ∧ current = some begun ∧
        (kindOf e.data = none → pending = some (controlCompletion begun .invalid .unknownKind 0 0 0 0)) ∧
        ∀ kd, kindOf e.data = some kd →
          (isTenantKind kd = true → pending = some (controlCompletion begun .invalid .tenantOnly 0 0 0 0)) ∧
          (isTenantKind kd = false → pending = s.control.cu.pending)) →
      (let room : Prop := (s.control.cu.writeIndex - s.control.cu.consumer).toNat < 16 * 2 ^ s.control.cqCode
       (∀ c, pending = some c → s.control.cu.post = none → room → post = some
          { addr := cqSlotAddr s.control.cqBase s.control.cqCode s.control.cu.writeIndex,
            data := encodeCompletion s.control.cu.lap c, discard := false }) ∧
       (pending = none ∨ s.control.cu.post ≠ none ∨ ¬room → post = s.control.cu.post)) →
      let reads : Prop := s.control.producer ≠ s.control.fetchIndex ∧ s.control.inFlight = none ∧ entry = none ∧
        ∀ c, current = some c → c.op = .executing
      let kept : Control := { s.control with
        postStop := false, entry := entry, current := current,
        cu := { s.control.cu with pending := pending, post := post } }
      (¬reads → exec (.enable w) s = .next { s with
        tport := some .ok, sqCode := sq, cqCode := cq, engine := .on, control := kept }) ∧
      (reads →
        let again : FetchRead :=
          { kind := .normal, seq := s.control.fetchIndex,
            addr := sqSlotAddr s.control.sqBase s.control.sqCode s.control.fetchIndex, discard := false }
        exec (.enable w) s = .next { s with
          tport := some .ok, sqCode := sq, cqCode := cq, engine := .on,
          control := { kept with fetchIndex := s.control.fetchIndex + 1, inFlight := some again } }))

/-- Sections 10.1.1, 1.9, 5.6, 9.3 and 2.7, SOFT_RESET, SOFT_RESET_END and every answer while RESETTING: RESETTING with
the records frozen while the M-port holds a transaction, the reset values with the kept registers when it holds none;
each answer drops its transaction and nothing else, and the reset ends with the last. -/
def Obligations.SoftResetWriteAndEnd : Prop :=
  (∀ (s : State) (w : Word) (sq cq : BitVec 3),
    sq = (if w.extractLsb' 4 3 = 7 then s.sqCode else w.extractLsb' 4 3) →
    cq = (if w.extractLsb' 8 3 = 7 then s.cqCode else w.extractLsb' 8 3) →
    (hostTaken s → mportOutstanding s ≠ 0 →
      ∃ t, exec (.softReset w) s = .next t ∧
        t = { s with tport := some .ok, sqCode := sq, cqCode := cq, engine := .resetting, tenants := t.tenants } ∧
        ∀ k, getTenant t k =
          { getTenant s k with chan := { (getTenant s k).chan with refetchWaiting := false } }) ∧
    (hostTaken s → mportOutstanding s = 0 →
      exec (.softReset w) s = .next { State.reset with
        pending := s.pending, tport := some .ok, sqCode := sq, cqCode := cq, base := s.base, draws := s.draws })) ∧
  (∀ s : State, s.engine = .resetting →
    (mportOutstanding s ≤ 1 → exec .softResetEnd s = .next { State.reset with
        pending := s.pending, rstAsserted := s.rstAsserted, tport := s.tport, sqCode := s.sqCode, cqCode := s.cqCode,
        base := s.base, draws := s.draws }) ∧
    (1 < mportOutstanding s → exec .softResetEnd s = .next s) ∧
    (∀ (k : TenantId) (r : FetchRead) (d : Record) (ok : Bool), (getTenant s k).chan.inFlight = some r →
      let dropped := afterDropped (setTenant s k { getTenant s k with
        chan := { (getTenant s k).chan with inFlight := none } })
      (r.discard = true → exec (.discardedReadAnswer k ok) s = .next dropped) ∧
      (r.discard = false → r.kind = .normal →
        exec (.fetchReadAck k d) s = .next dropped ∧ exec (.fetchReadError k) s = .next dropped) ∧
      (r.discard = false → r.kind = .refetch →
        exec (.refetchAck k d) s = .next dropped ∧ exec (.refetchError k) s = .next dropped)) ∧
    (∀ (k : TenantId) (p : Post) (ok : Bool), (getTenant s k).cu.post = some p →
      let dropped := afterDropped (setTenant s k { getTenant s k with cu := { (getTenant s k).cu with post := none } })
      (p.discard = true → exec (.discardedPostAnswer k ok) s = .next dropped) ∧
      (p.discard = false → (getTenant s k).cu.pending ≠ none →
        exec (.postAck (.tenant k)) s = .next dropped ∧ exec (.postError (.tenant k)) s = .next dropped)) ∧
    (∀ (r : FetchRead) (d : Record), s.control.inFlight = some r →
      let dropped := afterDropped { s with control := { s.control with inFlight := none } }
      exec (.controlFetchAck d) s = .next dropped ∧ exec .controlFetchError s = .next dropped) ∧
    (∀ c : Completion, PostOutstanding s.control.cu c →
      let dropped := afterDropped { s with control := { s.control with cu := { s.control.cu with post := none } } }
      exec (.postAck .control) s = .next dropped ∧ exec (.postError .control) s = .next dropped) ∧
    (s.control.query ≠ none →
      let dropped := afterDropped { s with control := { s.control with query := none } }
      exec .queryReportAck s = .next dropped ∧ exec .queryReportError s = .next dropped) ∧
    (∀ (k : TenantId) (p : Plan) (r : ElemRef) (e : Elem) (v : Word),
      let dropped := afterDropped { s with tu := { s.tu with
        outstanding := s.tu.outstanding.filter fun x => !refersTo r x } }
      (Names s k p r [.readIssued] e → exec (.elementReadAck r v) s = .next dropped) ∧
      (∀ ord, r = .element ord → Names s k p r [.writeIssued] e → exec (.elementWriteAck ord) s = .next dropped) ∧
      (Names s k p r [.readIssued, .writeIssued] e → exec (.elementErrorResponse r) s = .next dropped)))

/-- Sections 1.9, 2.2, 8.1 and 11.5.1, RST_N_ASSERT, RST_N_RELEASE, REGISTER_WRITE_OTHER and T_PORT_BAD_ACCESS; and
every register write while RESETTING, answered OK, and under RST_N, answered with an error response: neither changes
anything. -/
def Obligations.PowerOnResetAndOtherAccesses : Prop :=
  (∀ s : State, exec .rstNAssert s = .next { State.reset with pending := s.pending, rstAsserted := true } ∧
    exec .rstNRelease s = .next { s with rstAsserted := false }) ∧
  (∀ (s : State) (o : BitVec 8) (w : Word), hostTaken s →
    exec (.registerWriteOther o w) s = .next { s with tport := some .ok }) ∧
  (∀ (s : State) (b : Bool) (o : BitVec 8) (n : Nat), s.rstAsserted = true ∨ n ≠ 4 ∨ o.toNat % 4 ≠ 0 →
    exec (.tPortBadAccess b o n) s = .next { s with tport := some .error }) ∧
  (∀ (i : Instr) (s : State), isRegisterWrite i = true →
    (s.rstAsserted = false → s.engine = .resetting → exec i s = .next { s with tport := some .ok }) ∧
    (s.rstAsserted = true → exec i s = .next { s with tport := some .error }))

/-- Section 9.6: the level of every NOTIFY line, and the alert word it follows. -/
def Obligations.NotifyLines : Prop :=
  (∀ (s : State) (c : Ctx), s.rstAsserted = true ∨ s.engine = .resetting → notifyLine s c = false) ∧
  (∀ s : State, hostTaken s →
    (notifyLine s .control = true ↔
      alertWord s ≠ 0 ∨ (s.engine ≠ .off ∧
        (1 ≤ (s.control.cu.writeIndex - s.control.cu.consumer).toNat ∨ s.control.cu.urgent = true))) ∧
    (∀ k, notifyLine s (.tenant k) = true ↔
      s.engine ≠ .off ∧ (getTenant s k).state ≠ .detached ∧ (getTenant s k).state ≠ .detaching ∧
        ((getTenant s k).threshold ≤ ((getTenant s k).cu.writeIndex - (getTenant s k).cu.consumer).toNat ∨
          (getTenant s k).holdoffExpired = true ∨ (getTenant s k).cu.urgent = true))) ∧
  (∀ s : State, alertWord s = 0 ↔ s.control.cu.alert = none ∧ ∀ k, (getTenant s k).cu.alert = none)

/-! ## The timer unit -/

/-- Sections 8.1 to 8.6 and 9.6, SYNC_EDGE and TIMEBASE_STEP: the latch an edge sets; a step that decrements every
running timer, delivers one arrival for every set latch, takes the expiry of every timer it brings to 0 and clears the
latches; either order of R139, the free value of log 4; neither acts under RST_N or while RESETTING. -/
def Obligations.SyncEdgeAndTimebaseStep : Prop :=
  (∀ (s : State) (l : Line), hostTaken s →
    ∃ t, exec (.syncEdge l) s = .next t ∧ t = { s with latches := t.latches } ∧
      ∀ m, getLine t.latches m = (m == l || getLine s.latches m)) ∧
  (∀ s : State, hostTaken s → (∀ k, WaitRow (getTenant s k)) →
    ∃ t order, exec .timebaseStep s = .next t ∧ Stepped s t order) ∧
  (∀ (s : State) (l : Line), s.rstAsserted = true ∨ s.engine = .resetting → exec (.syncEdge l) s = .next s) ∧
  (∀ s : State, s.rstAsserted = true → exec .timebaseStep s = .next s) ∧
  (∀ s : State, s.rstAsserted = false → s.engine = .resetting →
    exec .timebaseStep s = .next { s with draws := s.draws + 1 })

/-- Sections 8.2 and 8.5, ARRIVAL: the timebase step at which a set latch delivers its arrival, taken first by every
tenant that counts on the line; with the latch clear, under RST_N and while RESETTING none is delivered. -/
def Obligations.ArrivalCounts : Prop :=
  (∀ (s : State) (l : Line), hostTaken s → getLine s.latches l = true → (∀ k, WaitRow (getTenant s k)) →
    ∃ t order, exec (.arrival l) s = .next t ∧ Stepped s t order ∧
      ∀ k n h, (getTenant s k).wait = .counting l n h → order k = true) ∧
  (∀ (s : State) (l : Line), s.rstAsserted = true ∨ s.engine = .resetting ∨ getLine s.latches l = false →
    exec (.arrival l) s = .next s)

/-- Sections 8.6 and 9.6, WAIT_TIMEOUT and HOLDOFF_EXPIRY: the timebase step that brings the timer to 0 is its expiry,
taken before an arrival of that step for WAIT_TIMEOUT; a timer that the step does not bring to 0 does not expire. -/
def Obligations.TimersExpire : Prop :=
  (∀ (s : State) (k : TenantId), hostTaken s → (∀ j, WaitRow (getTenant s j)) → (getTenant s k).waitTimer = some 1 →
    ∃ t order, exec (.waitTimeout k) s = .next t ∧ Stepped s t order ∧ order k = false) ∧
  (∀ (s : State) (k : TenantId), hostTaken s → (∀ j, WaitRow (getTenant s j)) →
    (getTenant s k).holdoffTimer = some 1 →
    ∃ t order, exec (.holdoffExpiry k) s = .next t ∧ Stepped s t order) ∧
  (∀ (s : State) (k : TenantId),
    (s.rstAsserted = true ∨ s.engine = .resetting ∨ (getTenant s k).waitTimer ≠ some 1 →
      exec (.waitTimeout k) s = .next s) ∧
    (s.rstAsserted = true ∨ s.engine = .resetting ∨ (getTenant s k).holdoffTimer ≠ some 1 →
      exec (.holdoffExpiry k) s = .next s))

/-- Section 8.4, WAIT: the WAIT at the head of a POSTING tenant's queue, and the WAIT that a RETRY_AFTER_POST step begins
afresh, is begun with its line, count, HALT_ON_TIMEOUT and timeout, or refused with BAD_FIELD, in the step of the post's
acknowledgement; a WAIT that is current and not begun likewise. -/
def Obligations.WaitBeginsOrIsRefused : Prop :=
  (∀ (s : State) (k : TenantId) (c : Completion) (q : Index) (r : Record) (rest : List Entry), serving s = true →
    PostOutstanding (getTenant s k).cu c → (getTenant s k).state = .posting →
    (getTenant s k).chan.queue = ⟨q, .record r⟩ :: rest → kindOf r = some .wait →
    ∃ t, exec (.wait k) s = .next (setTenant s k t) ∧ exec (.postAck (.tenant k)) s = .next (setTenant s k t) ∧
      WaitEntered k { postedTenant (getTenant s k) c with
        current := some ⟨q, .record r⟩, ackReport := none, chan := { (getTenant s k).chan with queue := rest } } r t) ∧
  (∀ (s : State) (k : TenantId) (c : Completion) (q : Index) (r : Record), serving s = true →
    PostOutstanding (getTenant s k).cu c → (getTenant s k).state = .halted →
    (getTenant s k).recovery = some .retryAfterPost → (getTenant s k).haltReason = some .timeout →
    (getTenant s k).current = some ⟨q, .record r⟩ →
    ∃ t, exec (.wait k) s = .next (setTenant s k t) ∧ exec (.postAck (.tenant k)) s = .next (setTenant s k t) ∧
      WaitEntered k { postedTenant (getTenant s k) c with recovery := none, haltReason := none } r t) ∧
  (∀ (s : State) (k : TenantId) (q : Index) (r : Record), serving s = true → (getTenant s k).state = .waiting →
    (getTenant s k).wait = .stopped → (getTenant s k).current = some ⟨q, .record r⟩ →
    ∃ t, exec (.wait k) s = .next (setTenant s k t) ∧ WaitEntered k (getTenant s k) r t) ∧
  (∀ (s : State) (k : TenantId), serving s = false ∨ (getTenant s k).wait ≠ .stopped ∧ (getTenant s k).state = .waiting →
    exec (.wait k) s = .next s)

/-! ## The fetch unit -/

/-- Section 2.4, FETCH_READ_ISSUE: the read of the slot at the fetch index under the conditions of the section, and none
when one of them does not hold. -/
def Obligations.FetchReadIssued : Prop :=
  ∀ (s : State) (k : TenantId),
    (serving s = true → attached (getTenant s k) = true → (getTenant s k).producer ≠ (getTenant s k).chan.fetchIndex →
      (getTenant s k).chan.inFlight = none → (getTenant s k).chan.queue.length < 4 →
      (getTenant s k).chan.stop = false → (getTenant s k).drainRequested = false →
      (getTenant s k).chan.refetchWaiting = false →
      let slot := (getTenant s k).chan.fetchIndex.toNat % (16 * 2 ^ (getTenant s k).sqCode)
      let read : FetchRead :=
        { kind := .normal, seq := (getTenant s k).chan.fetchIndex,
          addr := (getTenant s k).sqBase + BitVec.ofNat 40 (slot * 64), discard := false }
      exec (.fetchReadIssue k) s = .next (setTenant s k { getTenant s k with
        chan := { (getTenant s k).chan with
          fetchIndex := (getTenant s k).chan.fetchIndex + 1, inFlight := some read } })) ∧
    (serving s = false ∨ attached (getTenant s k) = false ∨
        (getTenant s k).producer = (getTenant s k).chan.fetchIndex ∨ (getTenant s k).chan.inFlight ≠ none ∨
        4 ≤ (getTenant s k).chan.queue.length ∨ (getTenant s k).chan.stop = true ∨
        (getTenant s k).drainRequested = true ∨ (getTenant s k).chan.refetchWaiting = true →
      exec (.fetchReadIssue k) s = .next s)

/-- Sections 2.4, 2.5 and 1.4, FETCH_READ_ACK and FETCH_READ_ERROR: the entry that joins the tail of the queue, the
fetch stop of an error response, the entry that an IDLE tenant takes at once, and the REFETCH issued as the read
leaves. -/
def Obligations.FetchReadAnswered : Prop :=
  ∀ (s : State) (k : TenantId) (r : FetchRead) (d : Record), s.engine ≠ .resetting →
    ReadOutstanding (getTenant s k) r .normal false →
    ((getTenant s k).state ≠ .idle → (getTenant s k).chan.refetchWaiting = false →
      exec (.fetchReadAck k d) s = .next (setTenant s k { getTenant s k with
        chan := { (getTenant s k).chan with
          inFlight := none, queue := (getTenant s k).chan.queue ++ [⟨r.seq, .record d⟩] } }) ∧
      exec (.fetchReadError k) s = .next (setTenant s k { getTenant s k with
        chan := { (getTenant s k).chan with
          inFlight := none, stop := true, queue := (getTenant s k).chan.queue ++ [⟨r.seq, .failed⟩] } })) ∧
    ((getTenant s k).state = .idle → (getTenant s k).chan.refetchWaiting = false → (getTenant s k).chan.queue = [] →
      (∃ t, exec (.fetchReadAck k d) s = .next (setTenant s k t) ∧
        TakenAs k { getTenant s k with
          current := some ⟨r.seq, .record d⟩, chan := { (getTenant s k).chan with inFlight := none } } t) ∧
      (∃ t, exec (.fetchReadError k) s = .next (setTenant s k t) ∧
        TakenAs k { getTenant s k with
          current := some ⟨r.seq, .failed⟩,
          chan := { (getTenant s k).chan with inFlight := none, stop := true } } t)) ∧
    ((getTenant s k).state ≠ .idle → (getTenant s k).chan.refetchWaiting = true →
      ∀ e, (getTenant s k).current = some e →
        let read : FetchRead :=
          { kind := .refetch, seq := e.seq,
            addr := sqSlotAddr (getTenant s k).sqBase (getTenant s k).sqCode e.seq, discard := false }
        exec (.fetchReadAck k d) s = .next (setTenant s k { getTenant s k with
          chan := { (getTenant s k).chan with
            refetchWaiting := false, inFlight := some read,
            queue := (getTenant s k).chan.queue ++ [⟨r.seq, .record d⟩] } }) ∧
        exec (.fetchReadError k) s = .next (setTenant s k { getTenant s k with
          chan := { (getTenant s k).chan with
            refetchWaiting := false, inFlight := some read, stop := true,
            queue := (getTenant s k).chan.queue ++ [⟨r.seq, .failed⟩] } }))

/-- Section 2.8, CONTROL_READ_ISSUE, CONTROL_FETCH_ACK and CONTROL_FETCH_ERROR: when the control channel reads, the
record taken at once in ACTIVE with none current and refused by its kind byte, the entry kept otherwise, and the stop
of an error response with the fetch index returned to the failed slot. A record of a control kind is left to its own
command, by the model's choice (log 2). -/
def Obligations.ControlChannel : Prop :=
  (∀ s : State,
    (s.engine = .on → s.control.producer ≠ s.control.fetchIndex → s.control.inFlight = none →
      s.control.entry = none → (∀ c, s.control.current = some c → c.op = .executing) →
      let slot := s.control.fetchIndex.toNat % (16 * 2 ^ s.control.sqCode)
      let read : FetchRead :=
        { kind := .normal, seq := s.control.fetchIndex,
          addr := s.control.sqBase + BitVec.ofNat 40 (slot * 64), discard := false }
      exec .controlReadIssue s = .next { s with
        control := { s.control with fetchIndex := s.control.fetchIndex + 1, inFlight := some read } }) ∧
    (s.engine ≠ .on ∨ s.control.producer = s.control.fetchIndex ∨ s.control.inFlight ≠ none ∨
        s.control.entry ≠ none ∨ (∃ c, s.control.current = some c ∧ c.op = .waitingTarget) →
      exec .controlReadIssue s = .next s)) ∧
  (∀ (s : State) (r : FetchRead) (d : Record), s.control.inFlight = some r → s.control.entry = none →
    let s0 : State := { s with control := { s.control with inFlight := none } }
    let c : CtlRecord := { seq := r.seq, data := d, op := .executing }
    (s.engine = .on → s.control.current = none →
      (kindOf d = none → exec (.controlFetchAck d) s = .next (controlEnded s0 c .invalid .unknownKind 0 0 0 0)) ∧
      ∀ kd, kindOf d = some kd →
        (isTenantKind kd = true →
          exec (.controlFetchAck d) s = .next (controlEnded s0 c .invalid .tenantOnly 0 0 0 0)) ∧
        (isTenantKind kd = false →
          exec (.controlFetchAck d) s = .next { s0 with control := { s0.control with current := some c } })) ∧
    (s.engine = .ctlStopped ∨ (s.engine = .on ∧ s.control.current ≠ none) →
      exec (.controlFetchAck d) s = .next { s0 with control := { s0.control with entry := some ⟨r.seq, d⟩ } }) ∧
    (s.engine = .on ∨ s.engine = .ctlStopped →
      exec .controlFetchError s = .next { s with
        engine := .ctlStopped, control := { s.control with inFlight := none, fetchIndex := r.seq } }))

/-- Sections 2.5 and 2.6, REFETCH_ACK and REFETCH_ERROR: the record that replaces the current one and is taken as a
head, with the fetch stop cleared unless a failed entry is queued; and the new FETCH_ERROR halt of an error response. -/
def Obligations.RefetchAnswered : Prop :=
  ∀ (s : State) (k : TenantId) (r : FetchRead) (d : Record), s.engine ≠ .resetting →
    ReadOutstanding (getTenant s k) r .refetch false → (getTenant s k).state = .halted →
    (∃ t, exec (.refetchAck k d) s = .next (setTenant s k t) ∧
      TakenAs k { getTenant s k with
        current := some ⟨r.seq, .record d⟩, haltReason := none, recovery := none,
        chan := { (getTenant s k).chan with
          inFlight := none,
          stop := (getTenant s k).chan.stop &&
            (getTenant s k).chan.queue.any fun e => e.body == .failed } } t) ∧
    (∃ t, exec (.refetchError k) s = .next (setTenant s k t) ∧
      TakenAs k { getTenant s k with
        current := some ⟨r.seq, .failed⟩, recovery := none,
        chan := { (getTenant s k).chan with inFlight := none, stop := true } } t)

/-- Sections 2.7, 1.4.1 and 9.3, DISCARDED_READ_ANSWER and DISCARDED_POST_ANSWER: a marked transaction leaves and
changes nothing else, whatever the answer; an IDLE drained tenant enters PAUSED, and a REFETCH that waited is issued. An
answer of this kind to a post that is not marked changes nothing, by the model's choice (log 1). -/
def Obligations.DiscardedAnswers : Prop :=
  (∀ (s : State) (k : TenantId) (r : FetchRead) (ok : Bool), s.engine ≠ .resetting →
    (getTenant s k).chan.inFlight = some r → r.discard = true →
    ((getTenant s k).chan.refetchWaiting = false →
      ((getTenant s k).state = .idle → (getTenant s k).drainRequested = true → (getTenant s k).current = none →
        (getTenant s k).chan.queue = [] →
        exec (.discardedReadAnswer k ok) s = .next (setTenant s k { getTenant s k with
          state := .paused, chan := { (getTenant s k).chan with inFlight := none } })) ∧
      ((getTenant s k).state ≠ .idle ∨ (getTenant s k).drainRequested = false →
        exec (.discardedReadAnswer k ok) s = .next (setTenant s k { getTenant s k with
          chan := { (getTenant s k).chan with inFlight := none } }))) ∧
    ((getTenant s k).chan.refetchWaiting = true → (getTenant s k).state ≠ .idle →
      ∀ e, (getTenant s k).current = some e →
        let read : FetchRead :=
          { kind := .refetch, seq := e.seq,
            addr := sqSlotAddr (getTenant s k).sqBase (getTenant s k).sqCode e.seq, discard := false }
        exec (.discardedReadAnswer k ok) s = .next (setTenant s k { getTenant s k with
          chan := { (getTenant s k).chan with refetchWaiting := false, inFlight := some read } }))) ∧
  (∀ (s : State) (k : TenantId) (p : Post) (ok : Bool), s.engine ≠ .resetting → (getTenant s k).cu.post = some p →
    (p.discard = true →
      exec (.discardedPostAnswer k ok) s = .next (setTenant s k { getTenant s k with
        cu := { (getTenant s k).cu with post := none } })) ∧
    (p.discard = false → exec (.discardedPostAnswer k ok) s = .next s))

/-! ## Grants and the checks of the first grant -/

/-- Sections 1.1, 5.1 and 5.5, GRANT: a request in progress is taken for a READY tenant, RUNNING, the unit's fields as a
grant or a continuation sets them; with none in progress, or one dropped because its tenant is READY no more, the first
READY tenant from the rotation pointer upward is picked, and its request taken in this step or left in progress, the free
value of log 28; a dropped one with no tenant READY is gone; else, by the model's choice, nothing happens (log 1). -/
def Obligations.GrantPicksNextInRotation : Prop :=
  (∀ (s : State) (k : TenantId), serving s = true → s.tu.phase = .free → s.grantInProgress = some k →
    (getTenant s k).state = .ready → ∃ t, exec .grant s = .next t ∧ GrantTaken s k t) ∧
  (∀ s : State, serving s = true → s.tu.phase = .free →
    s.grantInProgress = none ∨ (∃ j, s.grantInProgress = some j ∧ (getTenant s j).state ≠ .ready) →
    (∀ k : TenantId, (getTenant s k).state = .ready →
      (∀ j : TenantId, (j - s.rotation).val < (k - s.rotation).val → (getTenant s j).state ≠ .ready) →
      ∃ (delayed : Bool) (t : State), exec .grant s = .next t ∧
        (delayed = true → t = { s with grantInProgress := some k, draws := s.draws + 1 }) ∧
        (delayed = false → GrantTaken { s with draws := s.draws + 1 } k t)) ∧
    ((∀ k, (getTenant s k).state ≠ .ready) → exec .grant s = .next { s with grantInProgress := none })) ∧
  (∀ s : State, serving s = false ∨ s.tu.phase ≠ .free → exec .grant s = .next s)

/-- Sections 3.1.1 and 4.1, SURFACE: the checks in their order, the slot written, and the window on it closed. -/
def Obligations.SurfaceRecord : Prop :=
  ∀ (s : State) (k : TenantId) (r : Record), FirstGrant s k r .surface → (getTenant s k).pendingMap = none →
    let f : Surface :=
      { base := (wordAt r 12).toNat, pitch := halfAt r 16, width := halfAt r 18, height := halfAt r 20,
        size := byteAt r 9 }
    let bad : Prop := 3 < byteAt r 8 ∨ (f.size ≠ 1 ∧ f.size ≠ 2 ∧ f.size ≠ 4) ∨ f.width = 0 ∨ 4096 < f.width ∨
      f.height = 0 ∨ 4096 < f.height ∨ f.pitch < f.size * f.width ∨ 65532 < f.pitch
    let unaligned : Prop := f.base % f.size ≠ 0 ∨ f.pitch % f.size ≠ 0
    let outside : Prop := 8388608 < f.base + (f.height - 1) * f.pitch + f.width * f.size
    (bad → exec .surface s = .next (refusedGrant s k .badField)) ∧
    (¬bad → unaligned → exec .surface s = .next (refusedGrant s k .align)) ∧
    (¬bad → ¬unaligned → outside → exec .surface s = .next (refusedGrant s k .notFit)) ∧
    (¬bad → ¬unaligned → ¬outside →
      ∃ (slot : Fin 4) (slots : Slots), slot.val = byteAt r 8 ∧
        exec .surface s = .next (zeroElementDone s k { getTenant s k with
          surfaces := slots,
          window := if (getTenant s k).window.map (fun w => w.slot) = some slot then none
            else (getTenant s k).window } 0) ∧
        ∀ j, slotGet slots j = if j = slot then some f else slotGet (getTenant s k).surfaces j)

/-- Sections 3.2.1 and 4.1, WINDOW: the checks in their order, and the window opened with its cursor at 0 and no held
value. -/
def Obligations.WindowRecord : Prop :=
  ∀ (s : State) (k : TenantId) (r : Record), FirstGrant s k r .window → (getTenant s k).pendingMap = none →
    let bad : Prop := 3 < byteAt r 8 ∨ 1 < byteAt r 9 ∨ 1 < byteAt r 11 ∨ 2 < byteAt r 12 ∨
      halfAt r 20 < halfAt r 16 ∨ halfAt r 22 < halfAt r 18
    (bad → exec .window s = .next (refusedGrant s k .badField)) ∧
    (¬bad → ∃ slot : Fin 4, slot.val = byteAt r 8 ∧
      (slotGet (getTenant s k).surfaces slot = none → exec .window s = .next (refusedGrant s k .noSurface)) ∧
      ∀ f, slotGet (getTenant s k).surfaces slot = some f →
        (f.width ≤ halfAt r 20 ∨ f.height ≤ halfAt r 22 → exec .window s = .next (refusedGrant s k .notFit)) ∧
        (halfAt r 20 < f.width → halfAt r 22 < f.height →
          let w : Window :=
            { slot := slot, x0 := halfAt r 16, y0 := halfAt r 18, x1 := halfAt r 20, y1 := halfAt r 22,
              order := if byteAt r 9 = 0 then .row else .column, xrev := flagAt r 10 0, yrev := flagAt r 10 1,
              writePolicy := if byteAt r 11 = 0 then .clip else .wrap,
              readPolicy := if byteAt r 12 = 0 then .hold else if byteAt r 12 = 1 then .zero else .wrap,
              cursor := 0, held := none }
          exec .window s = .next (zeroElementDone s k { getTenant s k with window := some w } 0)))

/-- Section 4.8, MARK and PROBE: the completion of each, with the entry word of the page in aux for a PROBE, and the
refusal of an address outside the logical space. -/
def Obligations.MarkAndProbe : Prop :=
  (∀ (s : State) (k : TenantId) (r : Record), FirstGrant s k r .mark → (getTenant s k).pendingMap = none →
    exec .mark s = .next (zeroElementDone s k (getTenant s k) 0)) ∧
  (∀ (s : State) (k : TenantId) (r : Record), FirstGrant s k r .probe → (getTenant s k).pendingMap = none →
    (8388608 ≤ (wordAt r 8).toNat → exec .probe s = .next (refusedGrant s k .badField)) ∧
    ((wordAt r 8).toNat < 8388608 →
      exec .probe s = .next (zeroElementDone s k (getTenant s k)
        (wordOfEntry (segGet (getTenant s k).segment ((wordAt r 8).toNat / 16384))))))

/-- Sections 4.1, 4.4 and 4.5, PUT and GET: the checks in their order; a record that passes starts with its plan, and
a PUT under CLIP whose cursor stands at the area finishes at once with its count in extra. -/
def Obligations.PutAndGetStart : Prop :=
  ∀ (i : Instr) (kd : Kind), (i = .put ∧ kd = .put) ∨ (i = .get ∧ kd = .get) →
  ∀ (s : State) (k : TenantId) (r : Record), FirstGrant s k r kd → (getTenant s k).pendingMap = none →
    let count := (wordAt r 16).toNat
    let size := byteAt r 8
    let addr := (wordAt r 12).toNat
    let bad : Prop := count = 0 ∨ 16777215 < count ∨ (size ≠ 1 ∧ size ≠ 2 ∧ size ≠ 4)
    (bad → exec i s = .next (refusedGrant s k .badField)) ∧
    (¬bad → ((getTenant s k).window = none ∨
        ∃ w, (getTenant s k).window = some w ∧ slotGet (getTenant s k).surfaces w.slot = none) →
      exec i s = .next (refusedGrant s k .noWindow)) ∧
    (¬bad → ∀ w f, (getTenant s k).window = some w → slotGet (getTenant s k).surfaces w.slot = some f →
      let from' := if kd = .put then size else f.size
      let to' := if kd = .put then f.size else size
      let modeOk : Prop := from' = to' ∨ (from' < to' ∧ byteAt r 9 ≤ 2) ∨
        (to' < from' ∧ (byteAt r 9 = 3 ∨ byteAt r 9 = 4))
      let last := 8388608 < addr + count * size
      (¬modeOk → exec i s = .next (refusedGrant s k .badField)) ∧
      (modeOk → addr % size ≠ 0 → exec i s = .next (refusedGrant s k .align)) ∧
      (modeOk → addr % size = 0 → last → exec i s = .next (refusedGrant s k .notFit)) ∧
      (modeOk → addr % size = 0 → ¬last →
        (kd = .get → exec i s = .next { s with tu := { s.tu with plan := some (planGet r w f w.cursor) } }) ∧
        (kd = .put → w.writePolicy = .wrap ∨ w.cursor < windowArea w →
          exec i s = .next { s with tu := { s.tu with plan := some (planPut r w f w.cursor) } }) ∧
        (kd = .put → w.writePolicy = .clip → windowArea w ≤ w.cursor →
          let done := tenantCompletion k (getTenant s k) .ok .none false 0 count 0 (BitVec.ofNat 32 w.cursor) 0
          exec i s = .next
            { setTenant s k { getTenant s k with
                state := .posting, progress := none,
                cu := { (getTenant s k).cu with pending := some done } } with
              tu := {} })))

/-- Sections 4.1, 4.6 and 4.7, COPY and FILL: the checks in their order, and the start with the record's plan. -/
def Obligations.CopyAndFillStart : Prop :=
  (∀ (s : State) (k : TenantId) (r : Record), FirstGrant s k r .copy → (getTenant s k).pendingMap = none →
    let w := halfAt r 24
    let h := halfAt r 26
    let bad : Prop := 3 < byteAt r 8 ∨ 3 < byteAt r 9 ∨ 1 < byteAt r 10 ∨ w = 0 ∨ 4096 < w ∨ h = 0 ∨ 4096 < h
    (bad → exec .copy s = .next (refusedGrant s k .badField)) ∧
    (¬bad → ∃ a b : Fin 4, a.val = byteAt r 8 ∧ b.val = byteAt r 9 ∧
      (slotGet (getTenant s k).surfaces a = none ∨ slotGet (getTenant s k).surfaces b = none →
        exec .copy s = .next (refusedGrant s k .noSurface)) ∧
      ∀ src dst, slotGet (getTenant s k).surfaces a = some src → slotGet (getTenant s k).surfaces b = some dst →
        let modeOk : Prop := src.size = dst.size ∨ (src.size < dst.size ∧ byteAt r 12 ≤ 2) ∨
          (dst.size < src.size ∧ (byteAt r 12 = 3 ∨ byteAt r 12 = 4))
        let outside : Prop := src.width < halfAt r 16 + w ∨ src.height < halfAt r 18 + h ∨
          dst.width < halfAt r 20 + w ∨ dst.height < halfAt r 22 + h
        (¬modeOk → exec .copy s = .next (refusedGrant s k .badField)) ∧
        (modeOk → outside → exec .copy s = .next (refusedGrant s k .notFit)) ∧
        (modeOk → ¬outside → exec .copy s = .next { s with
          tu := { s.tu with
            plan := some (planCopy r src dst (if byteAt r 10 = 0 then .row else .column)) } }))) ∧
  (∀ (s : State) (k : TenantId) (r : Record), FirstGrant s k r .fill → (getTenant s k).pendingMap = none →
    let w := halfAt r 16
    let h := halfAt r 18
    let bad : Prop := 3 < byteAt r 8 ∨ w = 0 ∨ 4096 < w ∨ h = 0 ∨ 4096 < h
    (bad → exec .fill s = .next (refusedGrant s k .badField)) ∧
    (¬bad → ∃ a : Fin 4, a.val = byteAt r 8 ∧
      (slotGet (getTenant s k).surfaces a = none → exec .fill s = .next (refusedGrant s k .noSurface)) ∧
      ∀ f, slotGet (getTenant s k).surfaces a = some f →
        let outside : Prop := f.width < halfAt r 12 + w ∨ f.height < halfAt r 14 + h
        (outside → exec .fill s = .next (refusedGrant s k .notFit)) ∧
        (¬outside → exec .fill s = .next { s with tu := { s.tu with plan := some (planFill r f) } })))

/-- Sections 3.4 to 3.7 and 4.2 to 4.7: what a PUT, GET, COPY or FILL takes from its record, surfaces and window: its
count, sizes, mode, modify enable, mask, pattern and value; under every overrun policy which elements are in-window, how
many, which stands on the window's last ordinal, how many are taken up, and where each reads and writes; and the value
written, bit by bit. The record and its tenant's surfaces and window make this plan. -/
def Obligations.ElementPlacementAndValue : Prop :=
  (∀ (r : Record) (w : Window) (f : Surface) (cs j : Nat),
    let p := planPut r w f cs
    let count := (wordAt r 16).toNat
    let clip : Prop := w.writePolicy = .clip
    p.kind = .put ∧ p.count = count ∧ p.cs = cs ∧ p.area = windowArea w ∧ p.policy = (if clip then .clip else .wrap) ∧
    p.srcSize = byteAt r 8 ∧ p.dstSize = f.size ∧ p.mode = byteAt r 9 ∧ p.modify = flagAt r 10 0 ∧
    p.mask = wordAt r 20 ∧ p.pattern = wordAt r 24 ∧
    (inWindow p j = true ↔ ¬clip ∨ cs + j < windowArea w) ∧
    inWindowCount p = (if clip then min count (windowArea w - cs) else count) ∧
    (isLast p j = true ↔ (if clip then cs + j else (cs + j) % windowArea w) + 1 = windowArea w) ∧
    takeUps p = (if w.writePolicy = .clip then min (wordAt r 16).toNat (windowArea w - cs) else (wordAt r 16).toNat) ∧
    elementReads p j = true ∧ srcAddr p j = (wordAt r 12).toNat + j * byteAt r 8 ∧
    dstAddr p j =
      walkAddr (windowWalk f w) (if w.writePolicy = .clip then cs + j else (cs + j) % windowArea w)) ∧
  (∀ (r : Record) (w : Window) (f : Surface) (cs j : Nat),
    let p := planGet r w f cs
    let count := (wordAt r 16).toNat
    let wrap : Prop := w.readPolicy = .wrap
    p.kind = .get ∧ p.count = count ∧ p.cs = cs ∧ p.area = windowArea w ∧
    p.policy = (match w.readPolicy with | .hold => .hold | .zero => .zero | .wrap => .wrap) ∧
    p.srcSize = f.size ∧ p.dstSize = byteAt r 8 ∧ p.mode = byteAt r 9 ∧ p.modify = flagAt r 10 0 ∧
    p.mask = wordAt r 20 ∧ p.pattern = wordAt r 24 ∧
    (inWindow p j = true ↔ wrap ∨ cs + j < windowArea w) ∧
    inWindowCount p = (if wrap then count else min count (windowArea w - cs)) ∧
    (isLast p j = true ↔ (if wrap then (cs + j) % windowArea w else cs + j) + 1 = windowArea w) ∧
    takeUps p = count ∧
    (elementReads p j = true ↔ w.readPolicy = .wrap ∨ cs + j < windowArea w) ∧
    srcAddr p j = walkAddr (windowWalk f w) (if w.readPolicy = .wrap then (cs + j) % windowArea w else cs + j) ∧
    dstAddr p j = (wordAt r 12).toNat + j * byteAt r 8 ∧
    fillAddr p = walkAddr (windowWalk f w) (windowArea w - 1)) ∧
  (∀ (r : Record) (src dst : Surface) (o : Order) (j : Nat),
    let p := planCopy r src dst o
    let c := match o with | .row => j % halfAt r 24 | .column => j / halfAt r 26
    let l := match o with | .row => j / halfAt r 24 | .column => j % halfAt r 26
    let x := if flagAt r 11 0 then halfAt r 24 - 1 - c else c
    let y := if flagAt r 11 1 then halfAt r 26 - 1 - l else l
    p.kind = .copy ∧ p.policy = .none ∧ p.count = halfAt r 24 * halfAt r 26 ∧ p.srcSize = src.size ∧
    p.dstSize = dst.size ∧ p.mode = byteAt r 12 ∧ p.modify = flagAt r 13 0 ∧ p.mask = wordAt r 28 ∧
    p.pattern = wordAt r 32 ∧ inWindow p j = false ∧ isLast p j = false ∧
    (j < halfAt r 24 * halfAt r 26 →
    takeUps p = halfAt r 24 * halfAt r 26 ∧ elementReads p j = true ∧
    srcAddr p j = src.base + (halfAt r 18 + y) * src.pitch + (halfAt r 16 + x) * src.size ∧
    dstAddr p j = dst.base + (halfAt r 22 + y) * dst.pitch + (halfAt r 20 + x) * dst.size)) ∧
  (∀ (r : Record) (f : Surface) (j : Nat),
    let p := planFill r f
    p.kind = .fill ∧ p.policy = .none ∧ p.count = halfAt r 16 * halfAt r 18 ∧ p.dstSize = f.size ∧
    p.value = wordAt r 20 ∧ inWindow p j = false ∧ isLast p j = false ∧
    takeUps p = halfAt r 16 * halfAt r 18 ∧ elementReads p j = false ∧
    dstAddr p j = f.base + (halfAt r 14 + j / halfAt r 16) * f.pitch + (halfAt r 12 + j % halfAt r 16) * f.size) ∧
  (∀ (p : Plan) (v : Word) (i : Nat), p.dstSize = 1 ∨ p.dstSize = 2 ∨ p.dstSize = 4 → i < 8 * p.dstSize →
    (elementValue p v).getLsbD i =
      (if p.modify then ((convert p.mode p.srcSize p.dstSize v).getLsbD i && p.mask.getLsbD i) ^^ p.pattern.getLsbD i
       else (convert p.mode p.srcSize p.dstSize v).getLsbD i)) ∧
  (∀ (n i : Nat) (v : Word), n = 1 ∨ n = 2 ∨ n = 4 → i < 32 →
    (cutTo n v).getLsbD i = (decide (i < 8 * n) && v.getLsbD i)) ∧
  (∀ (t : Tenant) (r : Record) (cs : Nat),
    (kindOf r = some .put ∨ kindOf r = some .get → ∀ w f, t.window = some w → slotGet t.surfaces w.slot = some f →
      planOf t r cs = some (if kindOf r = some .put then planPut r w f cs else planGet r w f cs)) ∧
    (kindOf r = some .copy → byteAt r 10 ≤ 1 → ∀ (a b : Fin 4) (src dst : Surface),
      a.val = byteAt r 8 → b.val = byteAt r 9 → slotGet t.surfaces a = some src → slotGet t.surfaces b = some dst →
      planOf t r cs = some (planCopy r src dst (if byteAt r 10 = 0 then .row else .column))) ∧
    (kindOf r = some .fill → ∀ (a : Fin 4) (f : Surface), a.val = byteAt r 8 → slotGet t.surfaces a = some f →
      planOf t r cs = some (planFill r f)))

/-! ## The element pipeline -/

/-- Sections 3.6, 4.3 and 5.2.1, TAKE_UP: the element at the next ordinal by kind and policy, issued or held; the first
faulting element; under HOLD, no overrun element while the read of the window's last element or the fill read is
outstanding (log 6), then the held value, or the fill read with none; and, by the model's choice, no change with all
places full or all elements taken up (log 1). -/
def Obligations.TakeUpElement : Prop :=
  ∀ (s : State) (k : TenantId) (p : Plan), UnderGrant s k p .issuing →
    let seg := (getTenant s k).segment
    let j := s.tu.nextOrd
    let awaited : Prop := ∃ e ∈ s.tu.outstanding, (e.stage = .readHeld ∨ e.stage = .readIssued) ∧
      (e.fill = true ∨ (elementReads p e.ord = true ∧ isLast p e.ord = true))
    (8 ≤ s.tu.outstanding.length ∨ takeUps p ≤ j → exec .takeUp s = .next s) ∧
    (s.tu.outstanding.length < 8 → j < takeUps p →
      (elementReads p j = true →
        (∀ a, translateAccess seg (srcAddr p j) .read = .phys a →
          let e : Elem :=
            { ord := j, fill := false, readAddr := a, writeAddr := 0, value := 0,
              stage := if blocked seg p s.tu.outstanding j false a p.srcSize then .readHeld else .readIssued }
          exec .takeUp s = .next { s with tu := takenUp s k p e }) ∧
        (∀ st, translateAccess seg (srcAddr p j) .read = .fault st →
          let f : Faulting := { ord := j, addr := srcAddr p j, status := st, reason := .none }
          exec .takeUp s = .next { s with tu := haltedUnit s.tu s.tu.outstanding f })) ∧
      (elementReads p j = false →
        (∀ v, (p.kind = .fill ∧ v = cutTo p.dstSize p.value) ∨ (p.kind = .get ∧ p.policy = .zero ∧ v = 0) ∨
            (p.kind = .get ∧ p.policy = .hold ∧ ¬awaited ∧
              ∃ h, heldValue (getTenant s k) = some h ∧ v = elementValue p h) →
          (∀ a, translateAccess seg (dstAddr p j) .write = .phys a →
            let e : Elem :=
              { ord := j, fill := false, readAddr := 0, writeAddr := a, value := v,
                stage := if blocked seg p s.tu.outstanding j true a p.dstSize then .writeHeld else .writeIssued }
            exec .takeUp s = .next { s with tu := takenUp s k p e }) ∧
          (∀ st, translateAccess seg (dstAddr p j) .write = .fault st →
            let f : Faulting := { ord := j, addr := dstAddr p j, status := st, reason := .none }
            exec .takeUp s = .next { s with tu := haltedUnit s.tu s.tu.outstanding f })) ∧
        (p.kind = .get → p.policy = .hold →
          (awaited → exec .takeUp s = .next s) ∧
          (¬awaited → heldValue (getTenant s k) = none →
            (∀ a, translateAccess seg (fillAddr p) .read = .phys a →
              let e : Elem :=
                { ord := j, fill := true, readAddr := a, writeAddr := 0, value := 0,
                  stage := if blocked seg p s.tu.outstanding j false a p.srcSize then .readHeld else .readIssued }
              exec .takeUp s =
                .next { s with tu := { s.tu with outstanding := s.tu.outstanding ++ [e] } }) ∧
            (∀ st, translateAccess seg (fillAddr p) .read = .fault st →
              let f : Faulting := { ord := j, addr := fillAddr p, status := st, reason := .none }
              exec .takeUp s = .next { s with tu := haltedUnit s.tu s.tu.outstanding f })))))

/-- Sections 4.3 and 12.1, HELD_TRANSACTION_ISSUE: which transactions an outstanding element of lower ordinal holds
(its unanswered read a write, its unanswered write, issued or to come, a read or a write, that touch a common byte), and
when a hold ends; a held transaction that nothing holds is issued in its place; where one write in flight alone holds
it, the step is that write's acknowledgement; while anything else holds it, nothing happens. -/
def Obligations.HeldTransactionIssued : Prop :=
  (∀ (seg : Segment) (p : Plan) (out : List Elem) (ord n : Nat) (isWrite : Bool) (a : Phys),
    blocked seg p out ord isWrite a n = true ↔
      ∃ e ∈ out, e.ord < ord ∧
        ((isWrite = true ∧ (e.stage = .readHeld ∨ e.stage = .readIssued) ∧ Meet e.readAddr p.srcSize a n) ∨
         ((e.stage = .writeHeld ∨ e.stage = .writeIssued) ∧ Meet e.writeAddr p.dstSize a n) ∨
         ((e.stage = .readHeld ∨ e.stage = .readIssued) ∧ e.fill = false ∧
           ∃ b, translateAccess seg (dstAddr p e.ord) .write = .phys b ∧ Meet b p.dstSize a n))) ∧
  (∀ (seg : Segment) (p : Plan) (u : TransferUnit) (e : Elem), holdEnded seg p u e = true ↔
    (u.phase ≠ .draining .abort ∧ (u.phase = .draining .halt → ∀ f, u.faulting = some f → e.ord ≤ f.ord)) ∧
    ((e.stage = .readHeld ∧ blocked seg p u.outstanding e.ord false e.readAddr p.srcSize = false) ∨
     (e.stage = .writeHeld ∧ blocked seg p u.outstanding e.ord true e.writeAddr p.dstSize = false))) ∧
  (∀ (s : State) (k : TenantId) (p : Plan) (r : ElemRef) (e : Elem), serving s = true →
      Names s k p r [.readHeld, .writeHeld] e → StillIssues s e.ord →
      let holds := fun x : Elem => x ∈ s.tu.outstanding ∧ x.ord < e.ord ∧
        ((e.stage = .readHeld ∧ blocked (getTenant s k).segment p [x] e.ord false e.readAddr p.srcSize = true) ∨
         (e.stage = .writeHeld ∧ blocked (getTenant s k).segment p [x] e.ord true e.writeAddr p.dstSize = true))
      ((∀ x, ¬holds x) →
        exec (.heldTransactionIssue r) s = .next (holdsReleased k p s) ∧
        ∃ e' ∈ (holdsReleased k p s).tu.outstanding, refersTo r e' = true ∧ inFlightStage e'.stage = true) ∧
      (∀ x, s.tu.outstanding.Nodup → (∀ y, holds y ↔ y = x) → x.fill = false →
        (x.stage = .writeIssued →
          exec (.heldTransactionIssue r) s = exec (.elementWriteAck x.ord) s) ∧
        (x.stage ≠ .writeIssued → exec (.heldTransactionIssue r) s = .next s)) ∧
      (∀ x y, holds x → holds y → x ≠ y → exec (.heldTransactionIssue r) s = .next s))

/-- Sections 3.6, 5.2.1 and 6.3, ELEMENT_READ_ACK: the held value a GET keeps; the place freed for a fill read or an
element the unit has stopped issuing for; else the element's write is translated and issued, held, or faults. The holds
that end with it are released in the same step. -/
def Obligations.ElementReadAcknowledged : Prop :=
  ∀ (s : State) (k : TenantId) (p : Plan) (r : ElemRef) (e : Elem) (v : Word), s.engine ≠ .resetting →
    Names s k p r [.readIssued] e →
    let kept : Option Window := if p.kind = .get ∧ (e.fill = true ∨ isLast p e.ord = true) then
      (getTenant s k).window.map fun w => { w with held := some (cutTo p.srcSize v) } else (getTenant s k).window
    let without := s.tu.outstanding.filter fun x => !refersTo r x
    let replaced := fun e' : Elem => s.tu.outstanding.map fun x => if refersTo r x then e' else x
    (e.fill = true ∨ s.tu.phase = .draining .abort ∨
        (s.tu.phase = .draining .halt ∧ ∃ f, s.tu.faulting = some f ∧ f.ord < e.ord) →
      exec (.elementReadAck r v) s = .next (holdsReleased k p
        { setTenant s k { getTenant s k with window := kept } with tu := { s.tu with outstanding := without } })) ∧
    (e.fill = false → StillIssues s e.ord →
      (∀ st, translateAccess (getTenant s k).segment (dstAddr p e.ord) .write = .fault st →
        let f : Faulting := { ord := e.ord, addr := dstAddr p e.ord, status := st, reason := .none }
        exec (.elementReadAck r v) s = .next (holdsReleased k p
          { setTenant s k { getTenant s k with window := kept } with tu := haltedUnit s.tu without f })) ∧
      (∀ a, translateAccess (getTenant s k).segment (dstAddr p e.ord) .write = .phys a →
        (blocked (getTenant s k).segment p s.tu.outstanding e.ord true a p.dstSize = true →
          let e' : Elem := { e with stage := .writeHeld, writeAddr := a, value := elementValue p v }
          exec (.elementReadAck r v) s = .next (holdsReleased k p
            { setTenant s k { getTenant s k with window := kept } with
              tu := { s.tu with outstanding := replaced e' } })) ∧
        (blocked (getTenant s k).segment p s.tu.outstanding e.ord true a p.dstSize = false →
          let e' : Elem := { e with stage := .writeIssued, writeAddr := a, value := elementValue p v }
          exec (.elementReadAck r v) s = .next (holdsReleased k p
            { setTenant s k { getTenant s k with
                window := if p.kind = .put ∧ isLast p e.ord = true then
                  (getTenant s k).window.map fun w => { w with held := none } else kept } with
              tu := { s.tu with outstanding := replaced e' } }))))

/-- Sections 3.4, 3.5 and 5.2.1, ELEMENT_WRITE_ACK: in every phase the place freed, the cursor advanced, and the
acknowledged prefix grown over every ended ordinal that follows it, with the wraps and the extra it counts. The holds that
end with it are released in the same step. -/
def Obligations.ElementWriteAcknowledged : Prop :=
  ∀ (s : State) (k : TenantId) (p : Plan) (ord : Nat) (e : Elem), s.engine ≠ .resetting →
    Names s k p (.element ord) [.writeIssued] e →
    let without := s.tu.outstanding.filter fun x => !refersTo (.element ord) x
    let step := fun c => if p.policy = .wrap then (if c % p.area + 1 = p.area then 0 else c % p.area + 1) else c + 1
    let t' : Tenant := { getTenant s k with
      window := if (p.kind = .put ∨ p.kind = .get) ∧ inWindow p ord = true then
        (getTenant s k).window.map fun w => { w with cursor := step w.cursor } else (getTenant s k).window }
    s.tu.done ≤ ord → ord ∉ s.tu.ended → s.tu.ended.Pairwise (· < ·) →
      (∀ x ∈ s.tu.ended, s.tu.done < x) → s.tu.wraps ≤ 65535 →
      ∃ (n : Nat) (rest : List Nat),
        (∀ o, s.tu.done ≤ o → o < n → o = ord ∨ o ∈ s.tu.ended) ∧ s.tu.done ≤ n ∧ ¬(n = ord ∨ n ∈ s.tu.ended) ∧
        (∀ o, o ∈ rest ↔ (o = ord ∨ o ∈ s.tu.ended) ∧ n ≤ o) ∧ rest.Pairwise (· < ·) ∧
        let joined := (List.range (n - s.tu.done)).map fun i => s.tu.done + i
        exec (.elementWriteAck ord) s = .next (holdsReleased k p
          { setTenant s k t' with
            tu := { s.tu with
              outstanding := without, done := n, ended := rest,
              wraps := if p.policy = .wrap then min 65535 (s.tu.wraps + joined.countP fun o => isLast p o)
                else s.tu.wraps,
              extra := if p.policy = .zero then s.tu.extra + joined.countP fun o => !inWindow p o
                else s.tu.extra } })

/-- Sections 5.4 and 5.6, ELEMENT_ERROR_RESPONSE: the faulting element recorded with the address of the transaction
answered; above a recorded faulting ordinal, or in an ABORT drain, only the place is freed. The holds that end with it
are released in the same step. -/
def Obligations.ElementErrorResponse : Prop :=
  ∀ (s : State) (k : TenantId) (p : Plan) (r : ElemRef) (e : Elem), s.engine ≠ .resetting →
    Names s k p r [.readIssued, .writeIssued] e →
    let without := s.tu.outstanding.filter fun x => !refersTo r x
    (StillIssues s e.ord →
      (e.stage = .readIssued →
        let at' := if e.fill then fillAddr p else srcAddr p e.ord
        let f : Faulting := { ord := e.ord, addr := at',
                              status := .busError, reason := .read }
        exec (.elementErrorResponse r) s = .next (holdsReleased k p { s with tu := haltedUnit s.tu without f })) ∧
      (e.stage = .writeIssued →
        let f : Faulting := { ord := e.ord, addr := dstAddr p e.ord, status := .busError, reason := .write }
        exec (.elementErrorResponse r) s = .next (holdsReleased k p { s with tu := haltedUnit s.tu without f }))) ∧
    (∀ f, s.tu.phase = .draining .halt → s.tu.faulting = some f → f.ord ≤ e.ord →
      (∀ x ∈ s.tu.outstanding, f.ord ≤ x.ord → inFlightStage x.stage = true) →
      exec (.elementErrorResponse r) s =
        .next (holdsReleased k p { s with tu := { s.tu with outstanding := without } })) ∧
    (s.tu.phase = .draining .abort →
      exec (.elementErrorResponse r) s = .next { s with tu := { s.tu with outstanding := without } })

/-- Sections 5.3 and 5.5, DRAIN_FINISH and DRAIN_PREEMPT: at an empty drain the record finishes with its counts, or
its tenant is READY again with what is needed to continue; before that, nothing happens. -/
def Obligations.DrainFinishAndPreempt : Prop :=
  (∀ (s : State) (k : TenantId) (p : Plan) (e : Entry), UnderGrant s k p (.draining .finish) →
    s.tu.outstanding = [] → (getTenant s k).pendingMap = none → (getTenant s k).current = some e →
    let done := tenantCompletion k (getTenant s k) .ok .none false s.tu.done (s.tu.extra + (p.count - takeUps p))
      s.tu.wraps (windowCursor (getTenant s k)) 0
    exec .drainFinish s = .next
      { setTenant s k { getTenant s k with
          state := .posting, progress := none, ackReport := some { seq := e.seq, count := s.tu.done },
          cu := { (getTenant s k).cu with pending := some done } } with
        tu := {} }) ∧
  (∀ (s : State) (k : TenantId) (p : Plan), UnderGrant s k p (.draining .preempt) → s.tu.outstanding = [] →
    exec .drainPreempt s = .next
      { setTenant s k { getTenant s k with
          state := .ready,
          progress := some { cause := .preempted, done := s.tu.done,
                             cursorAtStart := if p.kind = .put ∨ p.kind = .get then some p.cs else none,
                             wraps := s.tu.wraps, extra := s.tu.extra, faultAddr := none } } with
        tu := {} }) ∧
  (∀ s : State, s.tu.outstanding ≠ [] →
    exec .drainFinish s = .next s ∧ exec .drainPreempt s = .next s ∧ exec .drainHalt s = .next s ∧
      exec .abortDone s = .next s)

/-- Sections 1.6, 5.4 and 7.2, DRAIN_HALT: at an empty HALT drain the tenant halts at its faulting element, with the
progress record, the cursor set back to it, and the interim completion. -/
def Obligations.DrainHalt : Prop :=
  ∀ (s : State) (k : TenantId) (p : Plan) (f : Faulting) (e : Entry) (h : HaltReason),
    UnderGrant s k p (.draining .halt) → s.tu.outstanding = [] → s.tu.faulting = some f →
    haltReasonOf f.status = some h → (getTenant s k).pendingMap = none → (getTenant s k).current = some e →
    let c := if p.policy = .wrap then (if f.ord = 0 then p.cs else (p.cs + f.ord) % p.area)
      else p.cs + min f.ord (inWindowCount p)
    let data : Bool := p.kind == .put || p.kind == .get
    let window := if data then (getTenant s k).window.map fun w => { w with cursor := c } else (getTenant s k).window
    let cursor : Word := match window with | some w => BitVec.ofNat 32 w.cursor | none => 0xFFFFFFFF
    let stop := tenantCompletion k (getTenant s k) f.status f.reason true f.ord s.tu.extra s.tu.wraps cursor
      (BitVec.ofNat 32 f.addr)
    exec .drainHalt s = .next
      { setTenant s k { getTenant s k with
          state := .halted, haltReason := some h, window := window,
          progress := some { cause := .halted, done := f.ord, cursorAtStart := if data then some p.cs else none,
                             wraps := s.tu.wraps, extra := s.tu.extra, faultAddr := some f.addr },
          ackReport := some { seq := e.seq, count := f.ord },
          cu := { (getTenant s k).cu with pending := some stop } } with
        tu := {} }

/-! ## The map unit -/

/-- Section 6.5, MAP_LOAD and MAP_CLEAR: the checks in their order; the pages written and every other page kept when
the target holds no run; the operation left pending, and the record waiting, while it does. -/
def Obligations.MapOperations : Prop :=
  ∀ (load : Bool) (s : State) (c : CtlRecord), Executing s c (if load then .mapLoad else .mapClear) →
    let i : Instr := if load then .mapLoad else .mapClear
    let n := byteAt c.data 8
    let first := halfAt c.data 10
    let num := if load then byteAt c.data 12 else halfAt c.data 12
    let bad : Prop := 511 < first ∨ num = 0 ∨ (if load then 12 else 512) < num ∨ 512 < first + num
    let op : MapOp := if load then .load first (loadEntries c.data num) else .clear first num
    let run := fun t : Tenant => t.state = .running ∨ t.state = .detaching ∨
      (t.state = .ready ∧ ∃ p, t.progress = some p ∧ p.cause = .preempted)
    let new := fun p => if load then entryOfWord (wordAt c.data (16 + 4 * (p - first))) else clearEntry
    (n = 0 ∨ 7 < n → exec i s = .next (controlEnded s c .invalid .badTarget 0 0 0 0)) ∧
    ∀ k : TenantId, k.val + 1 = n →
      (bad → exec i s = .next (controlEnded s c .invalid .badField 0 0 (getTenant s k).mapVersion 0)) ∧
      (¬bad → (getTenant s k).state = .detached →
        exec i s = .next (controlEnded s c .wrongState .none 0 0 0 0)) ∧
      (¬bad → (getTenant s k).state ≠ .detached → run (getTenant s k) →
        exec i s = .next { setTenant s k { getTenant s k with pendingMap := some op } with
          control := { s.control with current := some { c with op := .waitingTarget } } }) ∧
      (¬bad → (getTenant s k).state ≠ .detached → ¬run (getTenant s k) →
        segmentWf (getTenant s k).segment = true →
        ∃ seg : Segment,
          exec i s = .next (controlEnded (setTenant s k { getTenant s k with
            segment := seg, mapVersion := (getTenant s k).mapVersion + 1, pendingMap := none })
            c .ok .none num 0 ((getTenant s k).mapVersion + 1) 0) ∧
          ∀ p, segGet seg p =
            if first ≤ p ∧ p < first + num then new p else segGet (getTenant s k).segment p)

/-- Sections 6.5 and 1.5, MAP_PENDING_APPLY, and every other end of a run with an operation pending: the drain, or the
first grant's command of a zero-element record, a refused record or a PUT under CLIP at the area, does what it does
without one, and in the same step applies the operation and builds the control completion with aux 1; a data record that
starts leaves it pending. -/
def Obligations.MapPendingApply : Prop :=
  (∀ (s : State) (k : TenantId) (p : Plan) (op : MapOp) (c : CtlRecord) (i : Instr) (d : DrainCause),
    (i = .drainFinish ∧ d = .finish) ∨ (i = .drainHalt ∧ d = .halt ∧
      ∃ f h, s.tu.faulting = some f ∧ haltReasonOf f.status = some h) →
    UnderGrant s k p (.draining d) → s.tu.outstanding = [] → (getTenant s k).pendingMap = some op →
    s.control.current = some c →
    ∃ t, exec i (setTenant s k { getTenant s k with pendingMap := none }) = .next t ∧
      let u := controlEnded (setTenant t k { getTenant t k with
        segment := mapOpSegment op (getTenant s k).segment, mapVersion := (getTenant s k).mapVersion + 1,
        pendingMap := none }) c .ok .none (mapOpCount op) 0 ((getTenant s k).mapVersion + 1) 1
      exec i s = .next u ∧ exec (.mapPendingApply k) s = .next u) ∧
  (∀ (s : State) (k : TenantId) (r : Record) (kd : Kind) (op : MapOp) (c : CtlRecord) (i : Instr),
    (i, kd) ∈ [(Instr.surface, Kind.surface), (.window, .window), (.put, .put), (.get, .get), (.copy, .copy),
      (.fill, .fill), (.mark, .mark), (.probe, .probe)] →
    FirstGrant s k r kd → (getTenant s k).pendingMap = some op → s.control.current = some c →
    ∃ t, exec i (setTenant s k { getTenant s k with pendingMap := none }) = .next t ∧
      (t.tu.phase = .free →
        exec i s = .next (controlEnded (setTenant t k { getTenant t k with
          segment := mapOpSegment op (getTenant s k).segment, mapVersion := (getTenant s k).mapVersion + 1,
          pendingMap := none }) c .ok .none (mapOpCount op) 0 ((getTenant s k).mapVersion + 1) 1)) ∧
      (t.tu.phase ≠ .free → exec i s = .next { s with tu := t.tu })) ∧
  (∀ (s : State) (k : TenantId), (getTenant s k).pendingMap = none → exec (.mapPendingApply k) s = .next s)

/-! ## The completion unit -/

/-- Section 9.3, POST_ISSUE: the write of the pending completion at the slot of the write index under the conditions
of the section, and none when one of them does not hold. -/
def Obligations.PostIssued : Prop :=
  (∀ (s : State) (k : TenantId) (c : Completion), serving s = true → (getTenant s k).cu.pending = some c →
    let covered : Prop := c.kind.toNat < 3 ∨ 6 < c.kind.toNat ∨ c.elements = 0 ∨
      ∃ a, (getTenant s k).ackReport = some a ∧ a.seq = c.seq ∧ c.elements ≤ a.count
    let room : Prop := ((getTenant s k).cu.writeIndex - (getTenant s k).cu.consumer).toNat <
      16 * 2 ^ (getTenant s k).cqCode
    let slot := (getTenant s k).cu.writeIndex.toNat % (16 * 2 ^ (getTenant s k).cqCode)
    let post : Post :=
      { addr := (getTenant s k).cqBase + BitVec.ofNat 40 (slot * 32),
        data := encodeCompletion (getTenant s k).cu.lap c, discard := false }
    ((getTenant s k).cu.post = none → room → attached (getTenant s k) = true →
      (getTenant s k).haltReason ≠ some .postError → covered →
      exec (.postIssue (.tenant k)) s = .next (setTenant s k { getTenant s k with
        cu := { (getTenant s k).cu with post := some post } })) ∧
    ((getTenant s k).cu.post ≠ none ∨ ¬room ∨ attached (getTenant s k) = false ∨
        (getTenant s k).haltReason = some .postError ∨ ¬covered →
      exec (.postIssue (.tenant k)) s = .next s)) ∧
  (∀ (s : State) (c : Completion), serving s = true → s.control.cu.pending = some c →
    let room : Prop := (s.control.cu.writeIndex - s.control.cu.consumer).toNat < 16 * 2 ^ s.control.cqCode
    let slot := s.control.cu.writeIndex.toNat % (16 * 2 ^ s.control.cqCode)
    let post : Post :=
      { addr := s.control.cqBase + BitVec.ofNat 40 (slot * 32),
        data := encodeCompletion s.control.cu.lap c, discard := false }
    (s.control.cu.post = none → room → s.control.postStop = false →
      exec (.postIssue .control) s = .next { s with
        control := { s.control with cu := { s.control.cu with post := some post } } }) ∧
    (s.control.cu.post ≠ none ∨ ¬room ∨ s.control.postStop = true → exec (.postIssue .control) s = .next s)) ∧
  (∀ (s : State) (c : Ctx), serving s = false → exec (.postIssue c) s = .next s)

/-- Sections 9.3, 9.6, 1.4.1 and 7.4, POST_ACK and RECOVERY_AFTER_POST: the completion unit and the holdoff timer, the
record boundary of a POSTING tenant with the record it takes, the recovery step of a HALTED one, and the next control
record, which is left to its own command, by the model's choice (log 2). -/
def Obligations.PostAcknowledged : Prop :=
  (∀ (s : State) (k : TenantId) (c : Completion), s.engine ≠ .resetting → PostOutstanding (getTenant s k).cu c →
    ((getTenant s k).state = .posting →
      (∀ e rest, (getTenant s k).chan.queue = e :: rest →
        ∃ t, exec (.postAck (.tenant k)) s = .next (setTenant s k t) ∧
          TakenAs k { postedTenant (getTenant s k) c with
            current := some e, ackReport := none, chan := { (getTenant s k).chan with queue := rest } } t) ∧
      ((getTenant s k).chan.queue = [] →
        exec (.postAck (.tenant k)) s = .next (setTenant s k { postedTenant (getTenant s k) c with
          current := none, ackReport := none,
          state := if (getTenant s k).drainRequested = true ∧ (getTenant s k).chan.inFlight = none then .paused
            else .idle }))) ∧
    ((getTenant s k).state = .halted →
      ((getTenant s k).recovery = none →
        exec (.postAck (.tenant k)) s = .next (setTenant s k (postedTenant (getTenant s k) c))) ∧
      ((getTenant s k).recovery = some .retryAfterPost → (getTenant s k).haltReason ≠ some .postError →
        ∃ t, Retried k { postedTenant (getTenant s k) c with recovery := none } t ∧
          exec (.postAck (.tenant k)) s = .next (setTenant s k t) ∧
          exec (.recoveryAfterPost k) s = .next (setTenant s k t)) ∧
      ((getTenant s k).recovery = some .skipAfterPost →
        let t := skippedTenant k { postedTenant (getTenant s k) c with recovery := none }
        exec (.postAck (.tenant k)) s = .next (setTenant s k t) ∧
        exec (.recoveryAfterPost k) s = .next (setTenant s k t)))) ∧
  (∀ (s : State) (c : Completion), s.engine ≠ .resetting → PostOutstanding s.control.cu c →
    let s0 : State := { s with control := { s.control with
      current := none, cu := postedUnit s.control.cu s.control.cqCode c } }
    (s.engine ≠ .on ∨ s.control.entry = none → exec (.postAck .control) s = .next s0) ∧
    (s.engine = .on → ∀ e, s.control.entry = some e →
      let s1 : State := { s0 with control := { s0.control with entry := none } }
      let next : CtlRecord := { seq := e.seq, data := e.data, op := .executing }
      (kindOf e.data = none →
        exec (.postAck .control) s = .next (controlEnded s1 next .invalid .unknownKind 0 0 0 0)) ∧
      ∀ kd, kindOf e.data = some kd →
        (isTenantKind kd = true →
          exec (.postAck .control) s = .next (controlEnded s1 next .invalid .tenantOnly 0 0 0 0)) ∧
        (isTenantKind kd = false →
          exec (.postAck .control) s = .next { s1 with control := { s1.control with current := some next } })))

/-- Sections 9.3, 9.5 and 10.1, POST_ERROR: a tenant halts with POST_ERROR and keeps its completion, a recovery step is
dropped; the engine leaves ON for CTL_STOPPED at a post of context 0; both record a POST alert. -/
def Obligations.PostError : Prop :=
  (∀ (s : State) (k : TenantId) (c : Completion), s.engine ≠ .resetting → PostOutstanding (getTenant s k).cu c →
    (getTenant s k).state = .posting ∨ (getTenant s k).state = .halted →
    exec (.postError (.tenant k)) s = .next (setTenant s k { getTenant s k with
      state := .halted, haltReason := some .postError, recovery := none,
      cu := { (getTenant s k).cu with post := none, alert := some .post } })) ∧
  (∀ (s : State) (c : Completion), s.engine = .on ∨ s.engine = .ctlStopped → PostOutstanding s.control.cu c →
    exec (.postError .control) s = .next { s with
      engine := .ctlStopped,
      control := { s.control with
        postStop := true, cu := { s.control.cu with post := none, alert := some .post } } })

/-! ## Control records -/

/-- Section 10.3, ATTACH: the checks in their order, and the geometry and service values the target takes. -/
def Obligations.AttachRecord : Prop :=
  ∀ (s : State) (c : CtlRecord), Executing s c .attach →
    let r := c.data
    let bad : Prop := 6 < byteAt r 9 ∨ 6 < byteAt r 10 ∨ byteAt r 11 = 0 ∨ 8 < byteAt r 11 ∨ byteAt r 12 = 0 ∨
      32 < byteAt r 12 ∨ 4095 < halfAt r 14 ∨ 2 ^ 40 ≤ longAt r 16 ∨ 2 ^ 40 ≤ longAt r 24
    let unaligned : Prop := longAt r 16 % 64 ≠ 0 ∨ longAt r 24 % 32 ≠ 0
    (byteAt r 8 = 0 ∨ 7 < byteAt r 8 → exec .attach s = .next (controlEnded s c .invalid .badTarget 0 0 0 0)) ∧
    ∀ k : TenantId, k.val + 1 = byteAt r 8 →
      (bad → exec .attach s = .next (controlEnded s c .invalid .badField 0 0 (getTenant s k).mapVersion 0)) ∧
      (¬bad → unaligned →
        exec .attach s = .next (controlEnded s c .invalid .align 0 0 (getTenant s k).mapVersion 0)) ∧
      (¬bad → ¬unaligned → (getTenant s k).state ≠ .detached →
        exec .attach s = .next (controlEnded s c .wrongState .none 0 0 (getTenant s k).mapVersion 0)) ∧
      (¬bad → ¬unaligned → (getTenant s k).state = .detached →
        exec .attach s = .next (controlEnded (setTenant s k { getTenant s k with
          state := .idle, sqBase := BitVec.ofNat 40 (longAt r 16), sqCode := byteAt r 9,
          cqBase := BitVec.ofNat 40 (longAt r 24), cqCode := byteAt r 10, weight := byteAt r 11,
          threshold := byteAt r 12, holdoff := halfAt r 14, haltOnInvalid := flagAt r 13 0 })
          c .ok .none 0 0 0 0))

/-- Sections 5.6 and 10.4, DETACH and ABORT_DONE: the refusals; the detached values and the discard count at once for
a target that is not RUNNING; the abort of a RUNNING one, waited for while a transaction is in flight, and its end. -/
def Obligations.DetachRecord : Prop :=
  (∀ (s : State) (c : CtlRecord), Executing s c .detach →
    (byteAt c.data 8 = 0 ∨ 7 < byteAt c.data 8 →
      exec .detach s = .next (controlEnded s c .invalid .badTarget 0 0 0 0)) ∧
    ∀ k : TenantId, k.val + 1 = byteAt c.data 8 →
      let count := (if (getTenant s k).current.isSome then 1 else 0) + (getTenant s k).chan.queue.length
      let inFlight := s.tu.outstanding.filter fun e => inFlightStage e.stage
      ((getTenant s k).state = .detached →
        exec .detach s = .next (controlEnded s c .wrongState .none 0 0 (getTenant s k).mapVersion 0)) ∧
      ((getTenant s k).state ≠ .detached → (getTenant s k).state ≠ .running → (getTenant s k).state ≠ .detaching →
        exec .detach s = .next (controlEnded (setTenant s k (detachedAfter (getTenant s k))) c .ok .none 0 count 0
          (stateCode (getTenant s k).state))) ∧
      ((getTenant s k).state = .running → inFlight ≠ [] →
        exec .detach s = .next
          { setTenant s k { getTenant s k with
              state := .detaching, chan := (detachedAfter (getTenant s k)).chan,
              cu := { (getTenant s k).cu with pending := none, post := (detachedAfter (getTenant s k)).cu.post },
              holdoffTimer := none, holdoffExpired := false } with
            control := { s.control with current := some { c with op := .waitingTarget }, discardCount := count },
            tu := { s.tu with phase := .draining .abort, faulting := none, outstanding := inFlight } }) ∧
      ((getTenant s k).state = .running → inFlight = [] →
        exec .detach s = .next (controlEnded
          { setTenant s k (detachedAfter (getTenant s k)) with
            tu := {}, control := { s.control with discardCount := count } }
          c .ok .none 0 count 0 3))) ∧
  (∀ (s : State) (k : TenantId) (c : CtlRecord), serving s = true → s.tu.granted = some k →
    s.tu.phase = .draining .abort → s.tu.outstanding = [] → (getTenant s k).state = .detaching →
    s.control.current = some c →
    exec .abortDone s = .next (controlEnded { setTenant s k (detachedAfter (getTenant s k)) with tu := {} }
      c .ok .none 0 s.control.discardCount 0 3))

/-- Section 10.5, DRAIN and DRAIN_END: the refusals, the drain-requested flag, PAUSED at once for an IDLE target with
no read in flight, the wait of the record, and its end with OK or HALTED_TARGET and the state found. -/
def Obligations.DrainRecordAndEnd : Prop :=
  (∀ (s : State) (c : CtlRecord), Executing s c .drain →
    (byteAt c.data 8 = 0 ∨ 7 < byteAt c.data 8 →
      exec .drain s = .next (controlEnded s c .invalid .badTarget 0 0 0 0)) ∧
    ∀ k : TenantId, k.val + 1 = byteAt c.data 8 →
      let t : Tenant := { getTenant s k with drainRequested := true }
      let v := (getTenant s k).mapVersion
      ((getTenant s k).state = .detached → exec .drain s = .next (controlEnded s c .wrongState .none 0 0 v 0)) ∧
      ((getTenant s k).state = .halted →
        exec .drain s = .next (controlEnded (setTenant s k t) c .haltedTarget .none 0 0 v 6)) ∧
      ((getTenant s k).state = .paused ∨
          ((getTenant s k).state = .idle ∧ (getTenant s k).chan.inFlight = none) →
        exec .drain s = .next (controlEnded (setTenant s k { t with state := .paused }) c .ok .none 0 0 v 7)) ∧
      ((getTenant s k).state ≠ .detached → (getTenant s k).state ≠ .halted → (getTenant s k).state ≠ .paused →
        ((getTenant s k).state = .idle → (getTenant s k).chan.inFlight ≠ none) →
        exec .drain s = .next { setTenant s k t with
          control := { s.control with current := some { c with op := .waitingTarget } } })) ∧
  (∀ (s : State) (c : CtlRecord) (k : TenantId), serving s = true → s.control.current = some c →
    c.op = .waitingTarget → kindOf c.data = some .drain → k.val + 1 = byteAt c.data 8 →
    ((getTenant s k).state = .paused →
      exec .drainEnd s = .next (controlEnded s c .ok .none 0 0 (getTenant s k).mapVersion 7)) ∧
    ((getTenant s k).state = .halted →
      exec .drainEnd s = .next (controlEnded s c .haltedTarget .none 0 0 (getTenant s k).mapVersion 6)) ∧
    ((getTenant s k).state ≠ .paused → (getTenant s k).state ≠ .halted → exec .drainEnd s = .next s))

/-- Sections 7.4 to 7.7, RESUME_RETRY and RESUME_SKIP: the checks in their order; PAUSED left for IDLE; the step kept
for the interim completion; and what each mode makes of a halted target by its halt reason. -/
def Obligations.ResumeRecords : Prop :=
  ∀ (skip : Bool) (s : State) (c : CtlRecord), Executing s c .resume →
    let i : Instr := if skip then .resumeSkip else .resumeRetry
    let mode := byteAt c.data 9
    mode = (if skip then 1 else 0) ∨ 1 < mode →
    (byteAt c.data 8 = 0 ∨ 7 < byteAt c.data 8 →
      exec i s = .next (controlEnded s c .invalid .badTarget 0 0 0 0)) ∧
    ∀ k : TenantId, k.val + 1 = byteAt c.data 8 →
      let v := (getTenant s k).mapVersion
      let wrong : Prop := ((getTenant s k).state ≠ .halted ∧ (getTenant s k).state ≠ .paused) ∨
        ((getTenant s k).state = .halted ∧ (getTenant s k).recovery ≠ none) ∨
        ((getTenant s k).state = .halted ∧ (getTenant s k).haltReason = some .postError ∧ skip = true)
      (1 < mode → exec i s = .next (controlEnded s c .invalid .badField 0 0 v 0)) ∧
      (mode ≤ 1 → wrong → exec i s = .next (controlEnded s c .wrongState .none 0 0 v 0)) ∧
      (mode ≤ 1 → (getTenant s k).state = .paused →
        exec i s = .next (controlEnded
          (setTenant s k { getTenant s k with drainRequested := false, state := .idle }) c .ok .none 0 0 v 0)) ∧
      (mode ≤ 1 → ¬wrong → (getTenant s k).state = .halted →
        ((getTenant s k).haltReason ≠ some .postError → (getTenant s k).cu.pending ≠ none →
          exec i s = .next (controlEnded (setTenant s k { getTenant s k with
            recovery := some (if skip then .skipAfterPost else .retryAfterPost) }) c .ok .none 0 0 v 0)) ∧
        ((getTenant s k).haltReason ≠ some .postError → (getTenant s k).cu.pending = none →
          (skip = true →
            exec i s = .next (controlEnded (setTenant s k (skippedTenant k (getTenant s k))) c .ok .none 0 0 v 0)) ∧
          (skip = false →
            ∃ t, Retried k (getTenant s k) t ∧ exec i s = .next (controlEnded (setTenant s k t) c .ok .none 0 0 v 0))) ∧
        ((getTenant s k).haltReason = some .postError → ∀ d, (getTenant s k).cu.pending = some d →
          (d.interim = true →
            exec i s = .next (controlEnded (setTenant s k { getTenant s k with
              haltReason := haltReasonOf d.status }) c .ok .none 0 0 v 0)) ∧
          (d.interim = false →
            exec i s = .next (controlEnded (setTenant s k { getTenant s k with
              haltReason := none, state := .posting }) c .ok .none 0 0 v 0))))

/-- Sections 10.6 and 10.8, SET_SERVICE and NOTE: the checks in their order and the three service values; NOTE's
completion. -/
def Obligations.SetServiceAndNote : Prop :=
  (∀ (s : State) (c : CtlRecord), Executing s c .setService →
    let r := c.data
    let bad : Prop := byteAt r 9 = 0 ∨ 8 < byteAt r 9 ∨ byteAt r 10 = 0 ∨ 32 < byteAt r 10 ∨ 4095 < halfAt r 12
    (byteAt r 8 = 0 ∨ 7 < byteAt r 8 → exec .setService s = .next (controlEnded s c .invalid .badTarget 0 0 0 0)) ∧
    ∀ k : TenantId, k.val + 1 = byteAt r 8 →
      let v := (getTenant s k).mapVersion
      (bad → exec .setService s = .next (controlEnded s c .invalid .badField 0 0 v 0)) ∧
      (¬bad → (getTenant s k).state = .detached →
        exec .setService s = .next (controlEnded s c .wrongState .none 0 0 v 0)) ∧
      (¬bad → (getTenant s k).state ≠ .detached →
        exec .setService s = .next (controlEnded (setTenant s k { getTenant s k with
          weight := byteAt r 9, threshold := byteAt r 10, holdoff := halfAt r 12 }) c .ok .none 0 0 v 0))) ∧
  (∀ (s : State) (c : CtlRecord), Executing s c .note →
    exec .note s = .next (controlEnded s c .ok .none 0 0 0 0))

/-- Section 10.7, QUERY, QUERY_REPORT_ACK and QUERY_REPORT_ERROR: the checks in their order, the report of the target's
fields written at the record's address, and the completion that its answer gives. -/
def Obligations.QueryRecord : Prop :=
  (∀ (s : State) (c : CtlRecord), Executing s c .query →
    let n := byteAt c.data 8
    let a := longAt c.data 16
    (7 < n → exec .query s = .next (controlEnded s c .invalid .badTarget 0 0 0 0)) ∧
    (∀ v, (n = 0 ∧ v = 0) ∨ (∃ k : TenantId, k.val + 1 = n ∧ v = (getTenant s k).mapVersion) →
      (2 ^ 40 ≤ a → exec .query s = .next (controlEnded s c .invalid .badField 0 0 v 0)) ∧
      (a < 2 ^ 40 → a % 64 ≠ 0 → exec .query s = .next (controlEnded s c .invalid .align 0 0 v 0))) ∧
    (a < 2 ^ 40 → a % 64 = 0 → n = 0 →
      let report : Report :=
        { state := 9, haltReason := 0, alert := alertCode s.control.cu.alert, drainRequested := false,
          producer := s.control.producer, fetch := s.control.fetchIndex, writeIndex := s.control.cu.writeIndex,
          consumer := s.control.cu.consumer, prefetch := if s.control.entry.isSome then 1 else 0, weight := 0,
          mapVersion := 0, currentSeq := some c.seq, progress := none, cursor := 0xFFFFFFFF, area := 0 }
      let write : QueryWrite := { addr := BitVec.ofNat 40 a, data := encodeReport report, mapVersion := 0 }
      exec .query s = .next { s with control := { s.control with query := some write } }) ∧
    (a < 2 ^ 40 → a % 64 = 0 → ∀ k : TenantId, k.val + 1 = n →
      let t := getTenant s k
      let report : Report :=
        { state := stateCode t.state, haltReason := haltReasonCode t.haltReason, alert := alertCode t.cu.alert,
          drainRequested := t.drainRequested, producer := t.producer, fetch := t.chan.fetchIndex,
          writeIndex := t.cu.writeIndex, consumer := t.cu.consumer, prefetch := t.chan.queue.length,
          weight := t.weight, mapVersion := t.mapVersion, currentSeq := t.current.map fun e => e.seq,
          progress := t.progress.map fun p => p.done,
          cursor := match t.window with | some w => BitVec.ofNat 32 w.cursor | none => 0xFFFFFFFF,
          area := match t.window with | some w => (w.x1 - w.x0 + 1) * (w.y1 - w.y0 + 1) | none => 0 }
      let write : QueryWrite :=
        { addr := BitVec.ofNat 40 a, data := encodeReport report, mapVersion := t.mapVersion }
      exec .query s = .next { s with control := { s.control with query := some write } })) ∧
  (∀ (s : State) (c : CtlRecord) (q : QueryWrite), s.engine ≠ .resetting → s.control.query = some q →
    s.control.current = some c →
    let s0 : State := { s with control := { s.control with query := none } }
    exec .queryReportAck s = .next (controlEnded s0 c .ok .none 0 0 q.mapVersion 0) ∧
    exec .queryReportError s = .next (controlEnded s0 c .busError .write 0 0 q.mapVersion 0))
end

