-- ==== Sys2Proof/Laws/State.lean ====
section
/-! SUPPORT. One lemma per field for each update of the state that the meanings share, so that no proof unfolds a record
update: `setTenant`, `mapTenants`, `completeControl` and `waitOnTarget`, and what `getTenant` reads after each. -/

namespace Sys2Proof.Machine

/-! ## getTenant reads the tenants alone -/

@[simp] theorem getTenant_with_pending (s : State) (q : List Instr) (k : TenantId) :
    getTenant { s with pending := q } k = getTenant s k := rfl

@[simp] theorem getTenant_with_tu (s : State) (u : TransferUnit) (k : TenantId) :
    getTenant { s with tu := u } k = getTenant s k := rfl

@[simp] theorem getTenant_with_control (s : State) (c : Control) (k : TenantId) :
    getTenant { s with control := c } k = getTenant s k := rfl

@[simp] theorem getTenant_with_engine (s : State) (e : Engine) (k : TenantId) :
    getTenant { s with engine := e } k = getTenant s k := rfl

@[simp] theorem getTenant_with_tport (s : State) (a : Option TAnswer) (k : TenantId) :
    getTenant { s with tport := a } k = getTenant s k := rfl

@[simp] theorem getTenant_with_draws (s : State) (n : Nat) (k : TenantId) :
    getTenant { s with draws := n } k = getTenant s k := rfl

@[simp] theorem getTenant_with_grantInProgress (s : State) (g : Option TenantId) (k : TenantId) :
    getTenant { s with grantInProgress := g } k = getTenant s k := rfl

@[simp] theorem getTenant_with_latches (s : State) (l : Lines) (k : TenantId) :
    getTenant { s with latches := l } k = getTenant s k := rfl

/-- Two states with the same tenants agree at every tenant. -/
theorem getTenant_of_tenants_eq {s t : State} (h : s.tenants = t.tenants) (k : TenantId) :
    getTenant s k = getTenant t k := by unfold getTenant; rw [h]

/-- The tenants are the seven context records. -/
theorem tenants_ext {s t : State} (h : ∀ k, getTenant s k = getTenant t k) : s.tenants = t.tenants := by
  have h0 := h 0; have h1 := h 1; have h2 := h 2; have h3 := h 3; have h4 := h 4; have h5 := h 5; have h6 := h 6
  simp only [getTenant] at h0 h1 h2 h3 h4 h5 h6
  rcases hs : s.tenants with ⟨a1, a2, a3, a4, a5, a6, a7⟩
  rcases ht : t.tenants with ⟨b1, b2, b3, b4, b5, b6, b7⟩
  simp_all

/-! ## setTenant -/

@[simp] theorem getTenant_setTenant_self (s : State) (k : TenantId) (t : Tenant) :
    getTenant (setTenant s k t) k = t := by fin_cases k <;> rfl

/-- A tenant's update leaves every other tenant. -/
theorem getTenant_setTenant_of_ne (s : State) {j k : TenantId} (t : Tenant) (h : j ≠ k) :
    getTenant (setTenant s k t) j = getTenant s j := by
  revert h; fin_cases k <;> fin_cases j <;> first | (intro _; rfl) | (intro h; exact absurd rfl h)

/-- What `getTenant` reads after `setTenant`. -/
theorem getTenant_setTenant (s : State) (j k : TenantId) (t : Tenant) :
    getTenant (setTenant s k t) j = if j = k then t else getTenant s j := by
  by_cases h : j = k
  · subst h; simp
  · simp [h, getTenant_setTenant_of_ne]

@[simp] theorem setTenant_getTenant (s : State) (k : TenantId) : setTenant s k (getTenant s k) = s := by
  fin_cases k <;> rfl

@[simp] theorem setTenant_setTenant (s : State) (k : TenantId) (t u : Tenant) :
    setTenant (setTenant s k t) k u = setTenant s k u := by fin_cases k <;> rfl

@[simp] theorem setTenant_with_tu (s : State) (u : TransferUnit) (k : TenantId) (t : Tenant) :
    setTenant { s with tu := u } k t = { setTenant s k t with tu := u } := rfl

@[simp] theorem setTenant_pending (s : State) (k : TenantId) (t : Tenant) : (setTenant s k t).pending = s.pending := rfl
@[simp] theorem setTenant_rstAsserted (s : State) (k : TenantId) (t : Tenant) :
    (setTenant s k t).rstAsserted = s.rstAsserted := rfl
@[simp] theorem setTenant_engine (s : State) (k : TenantId) (t : Tenant) : (setTenant s k t).engine = s.engine := rfl
@[simp] theorem setTenant_sqCode (s : State) (k : TenantId) (t : Tenant) : (setTenant s k t).sqCode = s.sqCode := rfl
@[simp] theorem setTenant_cqCode (s : State) (k : TenantId) (t : Tenant) : (setTenant s k t).cqCode = s.cqCode := rfl
@[simp] theorem setTenant_base (s : State) (k : TenantId) (t : Tenant) : (setTenant s k t).base = s.base := rfl
@[simp] theorem setTenant_control (s : State) (k : TenantId) (t : Tenant) : (setTenant s k t).control = s.control := rfl
@[simp] theorem setTenant_tu (s : State) (k : TenantId) (t : Tenant) : (setTenant s k t).tu = s.tu := rfl
@[simp] theorem setTenant_rotation (s : State) (k : TenantId) (t : Tenant) :
    (setTenant s k t).rotation = s.rotation := rfl
@[simp] theorem setTenant_grantInProgress (s : State) (k : TenantId) (t : Tenant) :
    (setTenant s k t).grantInProgress = s.grantInProgress := rfl
@[simp] theorem setTenant_latches (s : State) (k : TenantId) (t : Tenant) : (setTenant s k t).latches = s.latches := rfl
@[simp] theorem setTenant_draws (s : State) (k : TenantId) (t : Tenant) : (setTenant s k t).draws = s.draws := rfl
@[simp] theorem setTenant_tport (s : State) (k : TenantId) (t : Tenant) : (setTenant s k t).tport = s.tport := rfl

/-- The engine serves the same. -/
@[simp] theorem serving_setTenant (s : State) (k : TenantId) (t : Tenant) : serving (setTenant s k t) = serving s := rfl

/-! ## mapTenants -/

@[simp] theorem getTenant_mapTenants (s : State) (f : TenantId → Tenant → Tenant) (k : TenantId) :
    getTenant (mapTenants s f) k = f k (getTenant s k) := by fin_cases k <;> rfl

@[simp] theorem mapTenants_pending (s : State) (f : TenantId → Tenant → Tenant) :
    (mapTenants s f).pending = s.pending := rfl
@[simp] theorem mapTenants_rstAsserted (s : State) (f : TenantId → Tenant → Tenant) :
    (mapTenants s f).rstAsserted = s.rstAsserted := rfl
@[simp] theorem mapTenants_engine (s : State) (f : TenantId → Tenant → Tenant) :
    (mapTenants s f).engine = s.engine := rfl
@[simp] theorem mapTenants_sqCode (s : State) (f : TenantId → Tenant → Tenant) :
    (mapTenants s f).sqCode = s.sqCode := rfl
@[simp] theorem mapTenants_cqCode (s : State) (f : TenantId → Tenant → Tenant) :
    (mapTenants s f).cqCode = s.cqCode := rfl
@[simp] theorem mapTenants_base (s : State) (f : TenantId → Tenant → Tenant) : (mapTenants s f).base = s.base := rfl
@[simp] theorem mapTenants_control (s : State) (f : TenantId → Tenant → Tenant) :
    (mapTenants s f).control = s.control := rfl
@[simp] theorem mapTenants_tu (s : State) (f : TenantId → Tenant → Tenant) : (mapTenants s f).tu = s.tu := rfl
@[simp] theorem mapTenants_rotation (s : State) (f : TenantId → Tenant → Tenant) :
    (mapTenants s f).rotation = s.rotation := rfl
@[simp] theorem mapTenants_grantInProgress (s : State) (f : TenantId → Tenant → Tenant) :
    (mapTenants s f).grantInProgress = s.grantInProgress := rfl
@[simp] theorem mapTenants_latches (s : State) (f : TenantId → Tenant → Tenant) :
    (mapTenants s f).latches = s.latches := rfl
@[simp] theorem mapTenants_draws (s : State) (f : TenantId → Tenant → Tenant) : (mapTenants s f).draws = s.draws := rfl
@[simp] theorem mapTenants_tport (s : State) (f : TenantId → Tenant → Tenant) : (mapTenants s f).tport = s.tport := rfl

/-! ## timebaseStep: the tenants, the latches and the count of free values drawn -/

@[simp] theorem getTenant_timebaseStep (s : State) (f : TenantId → Bool) (k : TenantId) :
    getTenant (timebaseStep s f) k =
      timebaseTenant s.latches (arrivalMeetsExpiry s.latches (getTenant s k) && f k) k (getTenant s k) := by
  fin_cases k <;> rfl
@[simp] theorem timebaseStep_pending (s : State) (f : TenantId → Bool) : (timebaseStep s f).pending = s.pending := rfl
@[simp] theorem timebaseStep_rstAsserted (s : State) (f : TenantId → Bool) :
    (timebaseStep s f).rstAsserted = s.rstAsserted := rfl
@[simp] theorem timebaseStep_engine (s : State) (f : TenantId → Bool) : (timebaseStep s f).engine = s.engine := rfl
@[simp] theorem timebaseStep_control (s : State) (f : TenantId → Bool) : (timebaseStep s f).control = s.control := rfl
@[simp] theorem timebaseStep_tu (s : State) (f : TenantId → Bool) : (timebaseStep s f).tu = s.tu := rfl
@[simp] theorem timebaseStep_latches (s : State) (f : TenantId → Bool) : (timebaseStep s f).latches = {} := rfl
@[simp] theorem timebaseStep_draws (s : State) (f : TenantId → Bool) : (timebaseStep s f).draws = s.draws + 1 := rfl

/-! ## completeControl and waitOnTarget: the control context alone -/

@[simp] theorem getTenant_completeControl (s : State) (c : CtlRecord) (d : Completion) (k : TenantId) :
    getTenant (completeControl s c d) k = getTenant s k := rfl
@[simp] theorem completeControl_pending (s : State) (c : CtlRecord) (d : Completion) :
    (completeControl s c d).pending = s.pending := rfl
@[simp] theorem completeControl_engine (s : State) (c : CtlRecord) (d : Completion) :
    (completeControl s c d).engine = s.engine := rfl
@[simp] theorem completeControl_rstAsserted (s : State) (c : CtlRecord) (d : Completion) :
    (completeControl s c d).rstAsserted = s.rstAsserted := rfl
@[simp] theorem completeControl_tu (s : State) (c : CtlRecord) (d : Completion) :
    (completeControl s c d).tu = s.tu := rfl
@[simp] theorem completeControl_tenants (s : State) (c : CtlRecord) (d : Completion) :
    (completeControl s c d).tenants = s.tenants := rfl
@[simp] theorem completeControl_current (s : State) (c : CtlRecord) (d : Completion) :
    (completeControl s c d).control.current = some { c with op := .executing } := rfl
@[simp] theorem completeControl_pendingCompletion (s : State) (c : CtlRecord) (d : Completion) :
    (completeControl s c d).control.cu.pending = some d := rfl

@[simp] theorem getTenant_waitOnTarget (s : State) (c : CtlRecord) (k : TenantId) :
    getTenant (waitOnTarget s c) k = getTenant s k := rfl
@[simp] theorem waitOnTarget_pending (s : State) (c : CtlRecord) : (waitOnTarget s c).pending = s.pending := rfl
@[simp] theorem waitOnTarget_engine (s : State) (c : CtlRecord) : (waitOnTarget s c).engine = s.engine := rfl
@[simp] theorem waitOnTarget_rstAsserted (s : State) (c : CtlRecord) :
    (waitOnTarget s c).rstAsserted = s.rstAsserted := rfl
@[simp] theorem waitOnTarget_tu (s : State) (c : CtlRecord) : (waitOnTarget s c).tu = s.tu := rfl
@[simp] theorem waitOnTarget_tenants (s : State) (c : CtlRecord) : (waitOnTarget s c).tenants = s.tenants := rfl
@[simp] theorem waitOnTarget_current (s : State) (c : CtlRecord) :
    (waitOnTarget s c).control.current = some { c with op := .waitingTarget } := rfl

/-! ## The parts of a tenant that its small updates write -/

@[simp] theorem withPending_cu (t : Tenant) (c : Completion) :
    (withPending t c).cu = { t.cu with pending := some c } := rfl
@[simp] theorem enterPosting_state (t : Tenant) (c : Completion) : (enterPosting t c).state = .posting := rfl
@[simp] theorem enterPosting_progress (t : Tenant) (c : Completion) : (enterPosting t c).progress = none := rfl
@[simp] theorem enterPosting_pending (t : Tenant) (c : Completion) : (enterPosting t c).cu.pending = some c := rfl
@[simp] theorem enterPosting_segment (t : Tenant) (c : Completion) : (enterPosting t c).segment = t.segment := rfl
@[simp] theorem enterPosting_chan (t : Tenant) (c : Completion) : (enterPosting t c).chan = t.chan := rfl
@[simp] theorem enterPosting_pendingMap (t : Tenant) (c : Completion) :
    (enterPosting t c).pendingMap = t.pendingMap := rfl
@[simp] theorem enterHalted_state (t : Tenant) (r : HaltReason) (c : Completion) :
    (enterHalted t r c).state = .halted := rfl
@[simp] theorem enterHalted_haltReason (t : Tenant) (r : HaltReason) (c : Completion) :
    (enterHalted t r c).haltReason = some r := rfl
@[simp] theorem enterHalted_pending (t : Tenant) (r : HaltReason) (c : Completion) :
    (enterHalted t r c).cu.pending = some c := rfl
@[simp] theorem enterHalted_progress (t : Tenant) (r : HaltReason) (c : Completion) :
    (enterHalted t r c).progress = t.progress := rfl
@[simp] theorem enterHalted_segment (t : Tenant) (r : HaltReason) (c : Completion) :
    (enterHalted t r c).segment = t.segment := rfl
@[simp] theorem enterHalted_chan (t : Tenant) (r : HaltReason) (c : Completion) :
    (enterHalted t r c).chan = t.chan := rfl
@[simp] theorem enterHalted_pendingMap (t : Tenant) (r : HaltReason) (c : Completion) :
    (enterHalted t r c).pendingMap = t.pendingMap := rfl
@[simp] theorem detachTenant_state (t : Tenant) : (detachTenant t).state = .detached := rfl
@[simp] theorem detachTenant_segment (t : Tenant) : (detachTenant t).segment = [] := rfl
@[simp] theorem detachTenant_mapVersion (t : Tenant) : (detachTenant t).mapVersion = 0 := rfl
@[simp] theorem applyMap_state (op : MapOp) (t : Tenant) : (applyMap op t).state = t.state := rfl
@[simp] theorem applyMap_version (op : MapOp) (t : Tenant) : (applyMap op t).mapVersion = t.mapVersion + 1 := rfl
@[simp] theorem applyMap_pendingMap (op : MapOp) (t : Tenant) : (applyMap op t).pendingMap = none := rfl
@[simp] theorem applyMap_segment (op : MapOp) (t : Tenant) :
    (applyMap op t).segment = mapOpSegment op t.segment := rfl

end Sys2Proof.Machine
end

