-- ==== Sys2Proof/Laws/Maps.lean ====
section
/-! SUPPORT. The map store: what a write of an entry does to what is read, and that every map operation keeps the canonical
form of a segment (R99, R109). -/

namespace Sys2Proof.Machine

/-! ## Reading after writing -/

/-- A page below every listed page holds the clear entry. -/
theorem segGet_eq_clear_of_lt {lo q : Nat} {seg : Segment} (h : segmentWfAbove lo seg = true) (hq : q < lo) :
    segGet seg q = clearEntry := by
  induction seg generalizing lo with
  | nil => rfl
  | cons x rest ih =>
    obtain ⟨p, e⟩ := x
    simp only [segmentWfAbove, Bool.and_eq_true, decide_eq_true_eq] at h
    have hne : q ≠ p := by omega
    simp only [segGet, hne, if_false]
    exact ih h.2 (by omega)

/-- Writing an entry makes the page hold it. -/
theorem segGet_segSet_self {lo q : Nat} {seg : Segment} (e : MapEntry) (h : segmentWfAbove lo seg = true) :
    segGet (segSet seg q e) q = e := by
  induction seg generalizing lo with
  | nil => unfold segSet; split <;> simp_all [segGet]
  | cons x rest ih =>
    obtain ⟨p, f⟩ := x
    simp only [segmentWfAbove, Bool.and_eq_true, decide_eq_true_eq] at h
    unfold segSet
    split_ifs with h1 h2 h3 h4
    · have hne : q ≠ p := by omega
      simp only [segGet, hne, if_false, h2]
      exact segGet_eq_clear_of_lt h.2 (by omega)
    · simp [segGet]
    · rw [h4]; exact segGet_eq_clear_of_lt h.2 (by omega)
    · simp [segGet]
    · simp only [segGet, h3, if_false]; exact ih h.2

/-- Writing an entry leaves every other page. -/
theorem segGet_segSet_of_ne {lo q r : Nat} {seg : Segment} (e : MapEntry) (h : segmentWfAbove lo seg = true)
    (hr : r ≠ q) : segGet (segSet seg q e) r = segGet seg r := by
  induction seg generalizing lo with
  | nil => unfold segSet; split <;> simp [segGet, hr]
  | cons x rest ih =>
    obtain ⟨p, f⟩ := x
    simp only [segmentWfAbove, Bool.and_eq_true, decide_eq_true_eq] at h
    unfold segSet
    split_ifs with h1 h2 h3 h4
    · rfl
    · simp [segGet, hr]
    · subst h3; simp [segGet, hr]
    · subst h3; simp [segGet, hr]
    · simp only [segGet]; split
      · rfl
      · exact ih h.2

/-! ## The canonical form -/

/-- A lower bound that holds for a larger start holds for a smaller one. -/
theorem segmentWfAbove_mono {lo hi : Nat} {seg : Segment} (hle : lo ≤ hi) (h : segmentWfAbove hi seg = true) :
    segmentWfAbove lo seg = true := by
  cases seg with
  | nil => rfl
  | cons x rest =>
    obtain ⟨p, e⟩ := x
    simp only [segmentWfAbove, Bool.and_eq_true, decide_eq_true_eq] at h ⊢
    exact ⟨⟨⟨by omega, h.1.1.2⟩, h.1.2⟩, h.2⟩

/-- Writing one entry keeps the canonical form, with a lower bound for the pages. -/
theorem segSet_wfAbove {lo q : Nat} {seg : Segment} (e : MapEntry) (h : segmentWfAbove lo seg = true) (hlo : lo ≤ q)
    (hq : q < Config.pages) : segmentWfAbove lo (segSet seg q e) = true := by
  induction seg generalizing lo with
  | nil =>
    unfold segSet
    split_ifs with hc
    · rfl
    · simp [segmentWfAbove, hlo, hq, hc]
  | cons x rest ih =>
    obtain ⟨p, f⟩ := x
    have h0 := h
    simp only [segmentWfAbove, Bool.and_eq_true, decide_eq_true_eq] at h
    unfold segSet
    split_ifs with h1 h2 h3 h4
    · exact h0
    · simp only [segmentWfAbove, Bool.and_eq_true, decide_eq_true_eq]
      exact ⟨⟨⟨hlo, hq⟩, by simp [h2]⟩, ⟨⟨⟨by omega, h.1.1.2⟩, h.1.2⟩, h.2⟩⟩
    · exact segmentWfAbove_mono (by omega) h.2
    · simp only [segmentWfAbove, Bool.and_eq_true, decide_eq_true_eq]
      exact ⟨⟨⟨hlo, hq⟩, by simp [h4]⟩, by subst h3; exact h.2⟩
    · simp only [segmentWfAbove, Bool.and_eq_true, decide_eq_true_eq]
      exact ⟨h.1, ih h.2 (by omega)⟩

/-- Writing one entry of a page below 512 keeps the canonical form. -/
theorem segSet_wf {q : Nat} {seg : Segment} (e : MapEntry) (h : segmentWf seg = true) (hq : q < Config.pages) :
    segmentWf (segSet seg q e) = true := segSet_wfAbove e h (Nat.zero_le _) hq

/-- A MAP_LOAD that fits keeps the canonical form. -/
theorem segWrite_wf {first : Nat} {es : List MapEntry} {seg : Segment} (h : segmentWf seg = true)
    (hf : first + es.length ≤ Config.pages) : segmentWf (segWrite seg first es) = true := by
  induction es generalizing first seg with
  | nil => exact h
  | cons e rest ih =>
    simp only [List.length_cons] at hf
    exact ih (segSet_wf e h (by omega)) (by omega)

/-- A MAP_CLEAR that fits keeps the canonical form. -/
theorem segClear_wf {first count : Nat} {seg : Segment} (h : segmentWf seg = true)
    (hf : first + count ≤ Config.pages) : segmentWf (segClear seg first count) = true := by
  induction count generalizing first seg with
  | zero => exact h
  | succ n ih => exact ih (segSet_wf clearEntry h (by omega)) (by omega)

/-- The empty segment, which reset and DETACH leave, is in canonical form. -/
theorem segmentWf_nil : segmentWf [] = true := rfl

/-- What MAP_LOAD leaves in a page: the entry it writes there, or what stood there. -/
theorem segGet_segWrite {first r : Nat} {es : List MapEntry} {seg : Segment} (h : segmentWf seg = true)
    (hf : first + es.length ≤ Config.pages) :
    segGet (segWrite seg first es) r =
      if first ≤ r ∧ r < first + es.length then es.getD (r - first) clearEntry else segGet seg r := by
  induction es generalizing first seg with
  | nil => simp [segWrite]
  | cons e rest ih =>
    simp only [List.length_cons] at hf ⊢
    have hw : segmentWf (segSet seg first e) = true := segSet_wf e h (by omega)
    simp only [segWrite]
    rw [ih hw (by omega)]
    by_cases hr : r = first
    · subst hr
      simp [segGet_segSet_self e h]
    · rw [segGet_segSet_of_ne e h hr]
      by_cases hin : first + 1 ≤ r ∧ r < first + 1 + rest.length
      · have h2 : first ≤ r ∧ r < first + (rest.length + 1) := by omega
        have h3 : r - first = (r - (first + 1)) + 1 := by omega
        rw [if_pos hin, if_pos h2, h3]; simp
      · have h2 : ¬ (first ≤ r ∧ r < first + (rest.length + 1)) := by omega
        rw [if_neg hin, if_neg h2]

/-- What MAP_CLEAR leaves in a page: the clear entry, or what stood there. -/
theorem segGet_segClear {first count r : Nat} {seg : Segment} (h : segmentWf seg = true)
    (hf : first + count ≤ Config.pages) :
    segGet (segClear seg first count) r = if first ≤ r ∧ r < first + count then clearEntry else segGet seg r := by
  induction count generalizing first seg with
  | zero => simp [segClear]
  | succ n ih =>
    have hw : segmentWf (segSet seg first clearEntry) = true := segSet_wf _ h (by omega)
    simp only [segClear]
    rw [ih hw (by omega)]
    by_cases hr : r = first
    · subst hr
      simp [segGet_segSet_self _ h]
    · rw [segGet_segSet_of_ne _ h hr]
      by_cases hin : first + 1 ≤ r ∧ r < first + 1 + n
      · rw [if_pos hin, if_pos (by omega)]
      · rw [if_neg hin, if_neg (by omega)]

end Sys2Proof.Machine
end

