-- ==== Sys2Proof/Laws/Ops.lean ====
section
/-! SUPPORT. One lemma for each shared operation that says once everything it can do; later proofs cite it instead of
unfolding the operation. -/

namespace Sys2Proof.Machine

/-! ## What selects the record a command acts on -/

/-- `currentControl` answers exactly the current control record that is EXECUTING, not carried out, and of this kind. -/
theorem currentControl_eq_some_iff {s : State} {kd : Kind} {c : CtlRecord} :
    currentControl s kd = some c ↔
      serving s = true ∧ s.control.current = some c ∧ c.op = .executing ∧ s.control.cu.pending = none ∧
        s.control.query = none ∧ kindOf c.data = some kd := by
  unfold currentControl
  cases hs : serving s
  · simp
  · rcases hc : s.control.current with _ | d
    · simp
    · simp only [if_true]
      split_ifs with h
      · simp only [Option.some.injEq, true_and]
        constructor
        · rintro rfl; exact ⟨rfl, h⟩
        · exact fun he => he.1
      · simp only [Option.some.injEq, true_and, false_iff]
        rintro ⟨rfl, h'⟩; exact h h'

/-- All that a GRANT can do: nothing; a request in progress taken; the request dropped with no tenant READY; or the tenant
picked by the rotation granted, or its request left in progress. -/
theorem execGrant_cases {s t : State} (h : execGrant s = .next t) :
    t = s ∨
    (serving s = true ∧ s.tu.phase = .free ∧
      ((∃ k, s.grantInProgress = some k ∧ (getTenant s k).state = .ready ∧ t = takeGrant s k) ∨
       (nextGrant s = none ∧ t = { s with grantInProgress := none }) ∨
       ∃ k, nextGrant s = some k ∧
        (t = { s with grantInProgress := some k, draws := s.draws + 1 } ∨
         t = takeGrant { s with grantInProgress := none, draws := s.draws + 1 } k))) := by
  have sends : ∀ u : State, u = { s with grantInProgress := none } → t = sendGrant u →
      (nextGrant s = none ∧ t = { s with grantInProgress := none }) ∨
      ∃ k, nextGrant s = some k ∧
        (t = { s with grantInProgress := some k, draws := s.draws + 1 } ∨
         t = takeGrant { s with grantInProgress := none, draws := s.draws + 1 } k) := by
    rintro u rfl ht
    have hn : nextGrant { s with grantInProgress := none } = nextGrant s := rfl
    unfold sendGrant at ht
    rw [hn] at ht
    cases hk : nextGrant s with
    | none => exact .inl ⟨rfl, by simpa [hk] using ht⟩
    | some k =>
      simp only [hk] at ht
      split at ht
      · exact .inr ⟨k, rfl, .inl ht⟩
      · exact .inr ⟨k, rfl, .inr ht⟩
  simp only [execGrant, Host.Outcome.next.injEq] at h
  split at h
  · rename_i hs
    refine .inr ⟨hs.1, hs.2, ?_⟩
    cases hg : s.grantInProgress with
    | none => exact .inr (sends s (by simp [← hg]) (by simpa [hg] using h.symm))
    | some k =>
      simp only [hg] at h
      split at h
      · exact .inl ⟨k, rfl, ‹_›, h.symm⟩
      · exact .inr (sends _ rfl h.symm)
  · exact .inl h.symm

/-- `nextGrant` answers a READY tenant. -/
theorem nextGrant_ready {s : State} {k : TenantId} (h : nextGrant s = some k) : (getTenant s k).state = .ready := by
  simpa using List.find?_some h

/-- What a taken grant changes: the tenant, the transfer unit, the rotation and the request in progress. -/
theorem takeGrant_frame (s : State) (k : TenantId) :
    takeGrant s k = { s with
      tenants := (takeGrant s k).tenants, tu := grantedUnit k (getTenant s k), rotation := k + 1,
      grantInProgress := none } ∧
    ∀ j, getTenant (takeGrant s k) j = if j = k then grantedTenant (getTenant s k) else getTenant s j :=
  ⟨rfl, fun j => getTenant_setTenant s j k _⟩

/-- `freshGrant` answers exactly the granted tenant and its record when the checks of this kind are to be made. -/
theorem freshGrant_eq_some_iff {s : State} {kd : Kind} {k : TenantId} {r : Record} :
    freshGrant s kd = some (k, r) ↔
      serving s = true ∧ s.tu.phase = .issuing ∧ s.tu.plan = none ∧ s.tu.granted = some k ∧
        (∃ q, (getTenant s k).current = some ⟨q, .record r⟩) ∧ (getTenant s k).state = .running ∧
        (getTenant s k).progress = none ∧ kindOf r = some kd := by
  unfold freshGrant
  split_ifs with h
  · rcases hg : s.tu.granted with _ | j
    · simp
    · simp only
      rcases hc : (getTenant s j).current with _ | ⟨q, _ | r'⟩
      · simp only [reduceCtorEq, Option.some.injEq, false_iff]
        rintro ⟨_, _, _, rfl, ⟨q, hq⟩, _⟩; rw [hc] at hq; cases hq
      all_goals
        try simp only
      · split_ifs with h2
        · simp only [Option.some.injEq, Prod.mk.injEq]
          constructor
          · rintro ⟨rfl, rfl⟩; exact ⟨h.1, h.2.1, h.2.2, rfl, ⟨q, hc⟩, h2⟩
          · rintro ⟨_, _, _, rfl, ⟨q', hq⟩, _⟩; rw [hc] at hq; cases hq; exact ⟨rfl, rfl⟩
        · simp only [Option.some.injEq, false_iff]
          rintro ⟨_, _, _, rfl, ⟨q', hq⟩, h3⟩; rw [hc] at hq; cases hq; exact h2 h3
      · simp only [reduceCtorEq, Option.some.injEq, false_iff]
        rintro ⟨_, _, _, rfl, ⟨q', hq⟩, _⟩; rw [hc] at hq; cases hq
  · simp only [false_iff]
    rintro ⟨h1, h2, h3, _⟩; exact h ⟨h1, h2, h3⟩

/-- `runningPlan` answers exactly the granted tenant and the plan of a record whose checks have passed. -/
theorem runningPlan_eq_some_iff {s : State} {k : TenantId} {p : Plan} :
    runningPlan s = some (k, p) ↔ s.tu.granted = some k ∧ s.tu.plan = some p := by
  unfold runningPlan
  rcases s.tu.granted with _ | j <;> rcases s.tu.plan with _ | q <;> simp

/-- `drained` answers exactly when the drain of this cause is empty and its tenant is RUNNING. -/
theorem drained_eq_some_iff {s : State} {c : DrainCause} {k : TenantId} {p : Plan} :
    drained s c = some (k, p) ↔
      s.tu.granted = some k ∧ s.tu.plan = some p ∧ serving s = true ∧ s.tu.phase = .draining c ∧
        s.tu.outstanding = [] ∧ (getTenant s k).state = .running := by
  unfold drained
  rcases hr : runningPlan s with _ | ⟨j, q⟩
  · simp only [reduceCtorEq, false_iff]
    rintro ⟨h1, h2, _⟩
    rw [runningPlan_eq_some_iff.mpr ⟨h1, h2⟩] at hr; cases hr
  · obtain ⟨hg, hp⟩ := runningPlan_eq_some_iff.mp hr
    simp only
    split_ifs with h
    · simp only [Option.some.injEq, Prod.mk.injEq, hg, hp]
      constructor
      · rintro ⟨rfl, rfl⟩; exact ⟨rfl, rfl, h⟩
      · rintro ⟨rfl, rfl, _⟩; exact ⟨rfl, rfl⟩
    · simp only [hg, hp, Option.some.injEq, false_iff]
      rintro ⟨rfl, rfl, h'⟩; exact h h'

/-- `findElem` answers an outstanding element that the reference names, at one of the stages. -/
theorem findElem_spec {out : List Elem} {r : ElemRef} {st : List Stage} {e : Elem} (h : findElem out r st = some e) :
    e ∈ out ∧ refersTo r e = true ∧ e.stage ∈ st := by
  unfold findElem at h
  have h1 := List.find?_some h
  simp only [Bool.and_eq_true, List.contains_iff_mem] at h1
  exact ⟨List.mem_of_find?_eq_some h, h1.1, h1.2⟩

/-! ## The control context -/

/-- `takeControl` changes the control context alone: nothing, or the prefetch entry becomes the current record. -/
theorem takeControl_cases (s : State) :
    takeControl s = s ∨
      ∃ e pend, s.engine = .on ∧ s.control.current = none ∧ s.control.entry = some e ∧
        takeControl s = { s with control := { s.control with
          entry := none, current := some { seq := e.seq, data := e.data, op := .executing },
          cu := { s.control.cu with pending := pend } } } := by
  by_cases he : s.engine = .on
  · rcases hc : s.control.current with _ | c
    · rcases hn : s.control.entry with _ | e
      · left; simp [takeControl, he, hc, hn]
      · right
        rcases hk : kindOf e.data with _ | kd
        · exact ⟨e, _, he, rfl, rfl, by simp only [takeControl, he, hc, hn, hk]; rfl⟩
        · by_cases ht : isTenantKind kd = true
          · exact ⟨e, _, he, rfl, rfl, by simp only [takeControl, he, hc, hn, hk, ht, if_true]; rfl⟩
          · exact ⟨e, s.control.cu.pending, he, rfl, rfl, by simp only [takeControl, he, hc, hn, hk, ht]; rfl⟩
    · left; simp [takeControl, he, hc]
  · left
    rcases h : s.engine <;> simp_all [takeControl]

/-- The tenants and the unit are not touched by the taking of a control record. -/
theorem takeControl_frame (s : State) :
    (takeControl s).tenants = s.tenants ∧ (takeControl s).tu = s.tu ∧ (takeControl s).engine = s.engine ∧
      (takeControl s).pending = s.pending ∧ (takeControl s).rstAsserted = s.rstAsserted := by
  rcases takeControl_cases s with h | ⟨e, pend, _, _, _, h⟩ <;> rw [h] <;> exact ⟨rfl, rfl, rfl, rfl, rfl⟩

/-- `tryControlRead` does nothing, or issues the read of the slot at the fetch index. -/
theorem tryControlRead_cases (s : State) :
    tryControlRead s = s ∨
      (s.engine = .on ∧ s.control.producer ≠ s.control.fetchIndex ∧ s.control.inFlight = none ∧
        s.control.entry = none ∧
        tryControlRead s = { s with control := { s.control with
          fetchIndex := s.control.fetchIndex + 1,
          inFlight := some { kind := .normal, seq := s.control.fetchIndex,
                             addr := sqSlotAddr s.control.sqBase s.control.sqCode s.control.fetchIndex,
                             discard := false } } }) := by
  unfold tryControlRead
  simp only
  split_ifs with h
  · exact Or.inr ⟨h.1, h.2.1, h.2.2.1, h.2.2.2.1, rfl⟩
  · exact Or.inl rfl

/-- `tryPostControl` does nothing, or issues the write of the pending completion at the slot of the write index. -/
theorem tryPostControl_cases (c : Control) :
    tryPostControl c = c ∨
      ∃ p, c.cu.pending = some p ∧ c.cu.post = none ∧ unconsumed c.cu < ringSlots c.cqCode ∧ c.postStop = false ∧
        tryPostControl c = { c with cu := issuePost c.cu c.cqBase c.cqCode p } := by
  unfold tryPostControl
  rcases hp : c.cu.pending with _ | p
  · exact Or.inl rfl
  · simp only
    split_ifs with h
    · exact Or.inr ⟨p, rfl, h.1, h.2.1, h.2.2, rfl⟩
    · exact Or.inl rfl

/-! ## Tenants -/

/-- `tryPostTenant` does nothing, or issues the write of the pending completion at the slot of the write index. -/
theorem tryPostTenant_cases (t : Tenant) :
    tryPostTenant t = t ∨
      ∃ c, t.cu.pending = some c ∧ t.cu.post = none ∧ unconsumed t.cu < ringSlots t.cqCode ∧ attached t = true ∧
        t.haltReason ≠ some .postError ∧ reportCovers t.ackReport c = true ∧
        tryPostTenant t = { t with cu := issuePost t.cu t.cqBase t.cqCode c } := by
  unfold tryPostTenant
  rcases hp : t.cu.pending with _ | p
  · exact Or.inl rfl
  · simp only
    split_ifs with h
    · exact Or.inr ⟨p, rfl, h.1, h.2.1, h.2.2.1, h.2.2.2.1, h.2.2.2.2, rfl⟩
    · exact Or.inl rfl

/-- A refused record ends with a terminal INVALID completion, or halts with an interim one. -/
theorem refuseRecord_cases (k : TenantId) (t : Tenant) (reason : Reason) :
    (t.haltOnInvalid = false ∧
      refuseRecord k t reason =
        enterPosting t (tenantCompletion k t .invalid reason false 0 0 0 (windowCursor t) 0)) ∨
    (t.haltOnInvalid = true ∧
      refuseRecord k t reason =
        enterHalted t .invalid (tenantCompletion k t .invalid reason true 0 0 0 (windowCursor t) 0)) := by
  unfold refuseRecord
  cases t.haltOnInvalid
  · exact Or.inl ⟨rfl, rfl⟩
  · exact Or.inr ⟨rfl, rfl⟩

/-- A WAIT is refused with BAD_FIELD, or counts its line from tally 0 with its timer loaded (R136). -/
theorem startWait_cases (k : TenantId) (t : Tenant) (r : Record) :
    startWait k t r = refuseRecord k t .badField ∨
    ∃ l : Line, l.val = byteAt r 8 ∧ 1 ≤ byteAt r 9 ∧ byteAt r 9 ≤ 15 ∧
      startWait k t r = { t with
        tally := 0, wait := .counting l (byteAt r 9) (flagAt r 10 0),
        waitTimer := if halfAt r 12 = 0 then none else some (halfAt r 12) } := by
  unfold startWait
  rcases hl : lineOfNumber (byteAt r 8) with _ | l
  · exact Or.inl rfl
  · simp only
    by_cases h : byteAt r 9 = 0 ∨ 15 < byteAt r 9
    · exact Or.inl (if_pos h)
    · refine Or.inr ⟨l, ?_, by omega, by omega, if_neg h⟩
      unfold lineOfNumber slotOfNumber at hl
      split at hl <;> cases hl <;> simp_all

/-- What `refuseRecord` leaves as it was. -/
theorem refuseRecord_frame (k : TenantId) (t : Tenant) (reason : Reason) :
    (refuseRecord k t reason).chan = t.chan ∧ (refuseRecord k t reason).segment = t.segment ∧
      (refuseRecord k t reason).mapVersion = t.mapVersion ∧ (refuseRecord k t reason).current = t.current ∧
      (refuseRecord k t reason).pendingMap = t.pendingMap := by
  rcases refuseRecord_cases k t reason with ⟨_, h⟩ | ⟨_, h⟩ <;> rw [h] <;> exact ⟨rfl, rfl, rfl, rfl, rfl⟩

/-- The states a record's taking leads to (R5 to R7, R136). -/
theorem admitCurrent_cases (k : TenantId) (t : Tenant) :
    admitCurrent k t = t ∨
    admitCurrent k t = haltFetchError k t ∨
    (∃ reason, admitCurrent k t = refuseRecord k t reason) ∨
    (∃ r, admitCurrent k t = startWait k { t with state := .waiting } r) ∨
    admitCurrent k t = { t with state := .ready, progress := none } := by
  unfold admitCurrent
  rcases t.current with _ | ⟨q, _ | _⟩
  · exact Or.inl rfl
  · rename_i r
    simp only
    rcases kindOf r with _ | kd
    · exact Or.inr (Or.inr (Or.inl ⟨_, rfl⟩))
    · cases kd <;>
        first
          | exact Or.inr (Or.inr (Or.inr (Or.inl ⟨r, rfl⟩)))
          | exact Or.inr (Or.inr (Or.inr (Or.inr rfl)))
          | exact Or.inr (Or.inr (Or.inl ⟨.controlOnly, rfl⟩))
  · exact Or.inr (Or.inl rfl)

/-- The taking of a record never touches the channel, the segment or the map version. -/
theorem admitCurrent_frame (k : TenantId) (t : Tenant) :
    (admitCurrent k t).chan = t.chan ∧ (admitCurrent k t).segment = t.segment ∧
      (admitCurrent k t).mapVersion = t.mapVersion ∧ (admitCurrent k t).current = t.current ∧
      (admitCurrent k t).pendingMap = t.pendingMap := by
  rcases admitCurrent_cases k t with h | h | ⟨reason, h⟩ | ⟨r, h⟩ | h
  · rw [h]; exact ⟨rfl, rfl, rfl, rfl, rfl⟩
  · rw [h]; exact ⟨rfl, rfl, rfl, rfl, rfl⟩
  · rw [h]; exact refuseRecord_frame k t reason
  · rw [h]
    rcases startWait_cases k { t with state := .waiting } r with h2 | ⟨l, _, _, _, h2⟩ <;> rw [h2]
    · exact refuseRecord_frame k _ _
    · exact ⟨rfl, rfl, rfl, rfl, rfl⟩
  · rw [h]; exact ⟨rfl, rfl, rfl, rfl, rfl⟩

/-! ## The timer unit -/

/-- An arrival leaves a tenant that does not count on its line, counts one, or ends the WAIT. -/
theorem takeArrival_cases (l : Line) (k : TenantId) (t : Tenant) :
    ((∀ n h, t.wait ≠ .counting l n h) ∧ takeArrival l k t = t) ∨
    ∃ n h, t.wait = .counting l n h ∧
      ((t.tally + 1 ≠ n ∧ takeArrival l k t = { t with tally := t.tally + 1 }) ∨
       (t.tally + 1 = n ∧ t.state = .waiting ∧ takeArrival l k t =
          enterPosting { t with tally := n, wait := .stopped, waitTimer := none }
            (tenantCompletion k t .ok .none false n 0 0 (windowCursor t) (BitVec.ofNat 32 (t.waitTimer.getD 0)))) ∨
       (t.tally + 1 = n ∧ t.state ≠ .waiting ∧
          takeArrival l k t = { t with tally := n, wait := .stopped, waitTimer := none })) := by
  unfold takeArrival
  rcases hw : t.wait with _ | ⟨line, n, h⟩
  · exact Or.inl ⟨fun _ _ => by simp, rfl⟩
  · simp only
    by_cases hl : line = l
    · subst hl
      refine Or.inr ⟨n, h, rfl, ?_⟩
      by_cases hn : t.tally + 1 = n
      · subst hn
        by_cases hs : t.state = .waiting
        · refine Or.inr (Or.inl ⟨rfl, hs, ?_⟩)
          simp only [ne_eq, not_true_eq_false, if_false, if_true, hs]; rfl
        · refine Or.inr (Or.inr ⟨rfl, hs, ?_⟩)
          simp only [ne_eq, not_true_eq_false, if_false, if_true, hs]
      · refine Or.inl ⟨hn, ?_⟩
        simp only [ne_eq, not_true_eq_false, if_false, hn]
    · refine Or.inl ⟨fun _ _ h' => hl (by injection h'), ?_⟩
      simp only [ne_eq, hl, not_false_eq_true, if_true]

/-- A wait timer that does not stand at 0, or a wait that is STOPPED, does not expire. -/
theorem expireWait_of_ne {k : TenantId} {t : Tenant} (h : t.waitTimer ≠ some 0 ∨ t.wait = .stopped) :
    expireWait k t = t := by
  unfold expireWait
  split
  · rcases h with h | h <;> simp_all
  · rfl

/-- The expiry of a WAITING tenant's timer halts it, or ends its WAIT, by HALT_ON_TIMEOUT (R138). -/
theorem expireWait_waiting {k : TenantId} {t : Tenant} {l : Line} {n : Nat} {h : Bool}
    (hw : t.wait = .counting l n h) (ht : t.waitTimer = some 0) (hs : t.state = .waiting) :
    expireWait k t =
      if h then enterHalted { t with wait := .stopped, waitTimer := none } .timeout
        (tenantCompletion k t .timeout .none true t.tally 0 0 (windowCursor t) 0)
      else enterPosting { t with wait := .stopped, waitTimer := none }
        (tenantCompletion k t .timeout .none false t.tally 0 0 (windowCursor t) 0) := by
  unfold expireWait
  simp only [hw, ht, hs, if_true]
  rfl

/-- A holdoff timer that does not stand at 0 does not expire. -/
theorem expireHoldoff_of_ne {t : Tenant} (h : t.holdoffTimer ≠ some 0) : expireHoldoff t = t := by
  unfold expireHoldoff
  split
  · simp_all
  · rfl

/-- `endOfRun` does nothing, or applies the pending operation of that tenant and completes the current control record. -/
theorem endOfRun_cases (s : State) (k : TenantId) :
    ((getTenant s k).pendingMap = none ∧ endOfRun s k = s) ∨
    ∃ op, (getTenant s k).pendingMap = some op ∧
      (endOfRun s k).tenants = (setTenant s k (applyMap op (getTenant s k))).tenants ∧
      (endOfRun s k).tu = s.tu ∧ (endOfRun s k).engine = s.engine ∧ (endOfRun s k).pending = s.pending ∧
      ((s.control.current = none ∧ (endOfRun s k).control = s.control) ∨
       ∃ c, s.control.current = some c ∧
         (endOfRun s k).control = { s.control with
           current := some { c with op := .executing },
           cu := { s.control.cu with pending := some (controlCompletion c .ok .none (mapOpCount op) 0
             ((getTenant s k).mapVersion + 1) 1) } }) := by
  unfold endOfRun
  rcases hp : (getTenant s k).pendingMap with _ | op
  · exact Or.inl ⟨rfl, by simp only [hp]⟩
  · right
    refine ⟨op, rfl, ?_⟩
    simp only [hp]
    rcases hc : s.control.current with _ | c
    · exact ⟨rfl, rfl, rfl, rfl, Or.inl ⟨rfl, rfl⟩⟩
    · exact ⟨rfl, rfl, rfl, rfl, Or.inr ⟨c, rfl, rfl⟩⟩

/-- `endResetIfDrained` does nothing, or resets every block with the registers R162 keeps. -/
theorem endResetIfDrained_cases (s : State) :
    endResetIfDrained s = s ∨
      (s.engine = .resetting ∧ mportOutstanding s = 0 ∧ endResetIfDrained s = resetBlocks s) := by
  unfold endResetIfDrained
  split_ifs with h
  · exact Or.inr ⟨h.1, h.2, rfl⟩
  · exact Or.inl rfl

/-- A T-port write is answered and does nothing else under RST_N or while RESETTING; else the word's rule acts. -/
theorem tportWrite_cases (s : State) (act : State → State) :
    (s.rstAsserted = true ∧ tportWrite s act = { s with tport := some .error }) ∨
    (s.rstAsserted = false ∧ s.engine = .resetting ∧ tportWrite s act = { s with tport := some .ok }) ∨
    (s.rstAsserted = false ∧ s.engine ≠ .resetting ∧ tportWrite s act = act { s with tport := some .ok }) := by
  unfold tportWrite
  cases hr : s.rstAsserted
  · by_cases he : s.engine = .resetting
    · exact Or.inr (Or.inl ⟨rfl, he, by simp [he]⟩)
    · exact Or.inr (Or.inr ⟨rfl, he, by simp [he]⟩)
  · exact Or.inl ⟨rfl, by simp⟩

/-! ## The transfer unit -/

/-- A recorded fault leaves an ABORT drain as it is, and otherwise makes a HALT drain. -/
theorem recordFault_cases (u : TransferUnit) (f : Faulting) :
    (u.phase = .draining .abort ∧ recordFault u f = u) ∨
    (u.phase ≠ .draining .abort ∧ (recordFault u f).phase = .draining .halt ∧ (recordFault u f).granted = u.granted ∧
      (recordFault u f).plan = u.plan ∧ (recordFault u f).done = u.done ∧ (recordFault u f).nextOrd = u.nextOrd ∧
      ∃ g, (recordFault u f).faulting = some g ∧ g.ord ≤ f.ord ∧
        (recordFault u f).outstanding =
          u.outstanding.filter fun e => decide (e.ord < g.ord) || inFlightStage e.stage) := by
  have key : ∀ old, (lowerFault old f).ord ≤ f.ord := by
    intro old
    unfold lowerFault
    rcases old with _ | g
    · exact le_refl _
    · simp only; split_ifs with h <;> omega
  by_cases ha : u.phase = .draining .abort
  · left; exact ⟨ha, by unfold recordFault; rw [ha]⟩
  · right
    refine ⟨ha, ?_⟩
    have hd : recordFault u f =
        (let g := lowerFault (if u.phase = .draining .halt then u.faulting else none) f
         { u with phase := .draining .halt, faulting := some g,
                  outstanding := u.outstanding.filter fun e => decide (e.ord < g.ord) || inFlightStage e.stage }) := by
      unfold recordFault
      rcases hp : u.phase with _ | _ | c
      · rfl
      · rfl
      · cases c <;> first | rfl | exact absurd hp ha
    rw [hd]
    exact ⟨rfl, rfl, rfl, rfl, rfl, _, rfl, key _, rfl⟩

/-- What a take-up decides: to drain for the finish, to begin a fresh slice, to drain for a preemption, or to go on. -/
theorem afterTakeUp_cases (s : State) (k : TenantId) (p : Plan) (u : TransferUnit) :
    (takeUps p ≤ u.nextOrd ∧ afterTakeUp s k p u = { u with phase := .draining .finish }) ∨
    (u.nextOrd < takeUps p ∧ u.sliceSize ≤ u.sliceCounter ∧ readySet s = [] ∧
      afterTakeUp s k p u = { u with sliceCounter := 0, sliceSize := (getTenant s k).weight * Config.sliceUnit }) ∨
    (u.nextOrd < takeUps p ∧ u.sliceSize ≤ u.sliceCounter ∧ readySet s ≠ [] ∧
      afterTakeUp s k p u = { u with phase := .draining .preempt }) ∨
    (u.nextOrd < takeUps p ∧ u.sliceCounter < u.sliceSize ∧ afterTakeUp s k p u = u) := by
  unfold afterTakeUp
  split_ifs with h1 h2 h3
  · exact Or.inl ⟨h1, rfl⟩
  · exact Or.inr (Or.inl ⟨by omega, h2, by simpa using h3, rfl⟩)
  · exact Or.inr (Or.inr (Or.inl ⟨by omega, h2, by simpa using h3, rfl⟩))
  · exact Or.inr (Or.inr (Or.inr ⟨by omega, by omega, rfl⟩))

/-- The counts and the prefix alone move when the prefix advances, and the ended ordinals are consumed from the front. -/
theorem advancePrefix_frame (p : Plan) (l : List Nat) (u : TransferUnit) :
    (advancePrefix p l u).phase = u.phase ∧ (advancePrefix p l u).granted = u.granted ∧
      (advancePrefix p l u).plan = u.plan ∧ (advancePrefix p l u).outstanding = u.outstanding ∧
      (advancePrefix p l u).nextOrd = u.nextOrd ∧ (advancePrefix p l u).faulting = u.faulting ∧
      u.done ≤ (advancePrefix p l u).done := by
  induction l generalizing u with
  | nil => exact ⟨rfl, rfl, rfl, rfl, rfl, rfl, le_refl _⟩
  | cons x xs ih =>
    unfold advancePrefix
    split_ifs with h
    · obtain ⟨h1, h2, h3, h4, h5, h6, h7⟩ := ih (countElement p x u)
      refine ⟨h1, h2, h3, h4, h5, h6, le_trans ?_ h7⟩
      show u.done ≤ x + 1
      omega
    · exact ⟨rfl, rfl, rfl, rfl, rfl, rfl, le_refl _⟩

/-! ## Holds -/

/-- A held transaction has a holder exactly when it is blocked. -/
theorem holders_eq_nil_iff {seg : Segment} {p : Plan} {out : List Elem} {e : Elem} :
    holders seg p out e = [] ↔
      (e.stage = .readHeld → blocked seg p out e.ord false e.readAddr p.srcSize = false) ∧
      (e.stage = .writeHeld → blocked seg p out e.ord true e.writeAddr p.dstSize = false) := by
  unfold holders blocked
  rcases e.stage <;> simp [List.filter_eq_nil_iff]

/-- The release of holds changes the granted tenant's window and the outstanding set alone. -/
theorem releaseHeld_frame (k : TenantId) (p : Plan) (s : State) :
    (releaseHeld k p s).pending = s.pending ∧ (releaseHeld k p s).engine = s.engine ∧
      (releaseHeld k p s).rstAsserted = s.rstAsserted ∧ (releaseHeld k p s).control = s.control ∧
      (∀ j, ∃ w, getTenant (releaseHeld k p s) j = { getTenant s j with window := w }) ∧
      ∃ out, (releaseHeld k p s).tu = { s.tu with outstanding := out } ∧ out.length = s.tu.outstanding.length ∧
        out.map (fun e => e.ord) = s.tu.outstanding.map fun e => e.ord := by
  refine ⟨rfl, rfl, rfl, rfl, fun j => ?_, _, rfl, by simp, ?_⟩
  · simp only [releaseHeld, getTenant_with_tu, getTenant_setTenant]
    split_ifs with h1 h2
    · subst h1; exact ⟨_, rfl⟩
    · subst h1; exact ⟨_, rfl⟩
    · exact ⟨_, rfl⟩
  · rw [List.map_map]
    refine List.map_congr_left fun e _ => ?_
    simp only [Function.comp]
    split_ifs
    · unfold issueHeld; split <;> rfl
    · rfl

/-! ## The end of a grant -/

/-- With no map operation pending, the end of a grant sets the tenant and frees the unit. -/
theorem endGrant_of_none {s : State} {k : TenantId} {t : Tenant} (h : t.pendingMap = none) :
    endGrant s k t = { setTenant s k t with tu := {} } := by
  have hg : getTenant { setTenant s k t with tu := {} } k = t := getTenant_setTenant_self s k t
  simp only [endGrant, endOfRun, hg, h]

/-- With one pending, the end of a grant also applies it and completes the control record that waits on it. -/
theorem endGrant_of_some {s : State} {k : TenantId} {t : Tenant} {op : MapOp} {c : CtlRecord}
    (h : t.pendingMap = some op) (hc : s.control.current = some c) :
    endGrant s k t = completeControl { setTenant s k (applyMap op t) with tu := {} } c
      (controlCompletion c .ok .none (mapOpCount op) 0 (t.mapVersion + 1) 1) := by
  have hg : getTenant { setTenant s k t with tu := {} } k = t := getTenant_setTenant_self s k t
  have hs : setTenant { setTenant s k t with tu := {} } k (applyMap op t) =
      { setTenant s k (applyMap op t) with tu := {} } := by
    have := setTenant_setTenant s k t (applyMap op t)
    simp only [setTenant] at this ⊢
    injection this with _ _ _ _ _ _ _ h8
    rw [h8]
  simp only [endGrant, endOfRun, hg, h, hs]
  show (match s.control.current with | none => _ | some c => _) = _
  rw [hc]; rfl

end Sys2Proof.Machine
end

