-- ==== Sys2Proof/Tests/Slice0.lean ====
section
/-! SUPPORT. Tests: the ill-formed commands the checks refuse, single commands against the worked examples and tables of
the spec, and, for every statement with hypotheses, concrete states and operands that meet the hypotheses of each of its
clauses. -/

namespace Sys2Proof.Tests

-- One test at a time: elaborated side by side, their threads reserve more memory than the check allows.
set_option Elab.async false

open Sys2Proof.Machine

/-! ## Builders -/

/-- A record from pairs of an offset and the number that stands there, least significant byte first. -/
def mkRecord (fields : List (Nat × Nat)) : Record :=
  fields.foldl (fun a f => a ||| BitVec.ofNat 512 f.2 <<< (8 * f.1)) 0

/-- The state a command leaves. -/
def after (i : Instr) (s : State) : State :=
  match exec i s with
  | .next t => t
  | .fault _ => s
  | .refused _ => s

/-- Engine ON. -/
def on : State := { engine := .on }

/-- Engine ON, tenant 1 as given. -/
def onWith (t : Tenant) : State := setTenant on 0 t

/-- Engine ON, this control record current with sequence 5, tenant 1 as given. -/
def control (r : Record) (t : Tenant) : State :=
  { onWith t with control := { current := some { seq := 5, data := r, op := .executing } } }

/-- The control record of `control`. -/
def ctl (r : Record) : CtlRecord := { seq := 5, data := r, op := .executing }

/-- Tenant 1 holds this record, sequence 3, as its current record. -/
def holding (r : Record) (t : Tenant) : Tenant := { t with current := some ⟨3, .record r⟩ }

/-- Tenant 1 is granted for the first time with this record. -/
def granted (r : Record) (t : Tenant) : State :=
  { onWith { holding r t with state := .running } with
    tu := { phase := .issuing, granted := some 0, sliceSize := 256 } }

/-- A rectangle of the table of section 3.3.1. -/
def rect (o : Order) (xr yr : Bool) : Walk :=
  { base := 262144, pitch := 1280, size := 2, x0 := 10, y0 := 5, width := 3, height := 2, order := o, xrev := xr,
    yrev := yr }

/-- The surface of sections 3.3.1 and 3.8. -/
def pixels : Surface := { base := 262144, pitch := 1280, width := 640, height := 480, size := 2 }

/-- The window of section 3.8, with this cursor and policies. -/
def pane (c : Nat) (wp : WritePolicy) (rp : ReadPolicy) : Window :=
  { slot := 0, x0 := 10, y0 := 5, x1 := 12, y1 := 6, order := .row, xrev := true, yrev := false, writePolicy := wp,
    readPolicy := rp, cursor := c, held := none }

/-- An entry that can be read and written. -/
def openEntry : MapEntry := { v := true, r := true, w := true, ppn := 5 }

/-- Tenant 1 with its surface, a window and open pages 0 and 16. -/
def painter (c : Nat) (wp : WritePolicy) (rp : ReadPolicy) : Tenant :=
  { surfaces := { s0 := some pixels, s1 := some { pixels with size := 1 } }, window := some (pane c wp rp),
    segment := [(0, openEntry), (16, openEntry)] }

/-- A linear record, PUT (3) or GET (4). -/
def linear (kind size mode addr count : Nat) : Record :=
  mkRecord [(0, kind), (8, size), (9, mode), (12, addr), (16, count)]

/-- Tenant 1 runs under this plan; the unit as given. -/
def running (p : Plan) (t : Tenant) (u : TransferUnit) : State :=
  { onWith { t with state := .running } with tu := { u with granted := some 0, plan := some p } }

/-- A PUT of 8 elements of 2 bytes from address 0 into the window of `painter`. -/
def putPlan (c : Nat) (wp : WritePolicy) : Plan := planPut (linear 3 2 0 0 8) (pane c wp .hold) pixels c

/-- A GET of 8 elements of 2 bytes from the window of `painter` to address 0. -/
def getPlan (c : Nat) (rp : ReadPolicy) : Plan := planGet (linear 4 2 0 0 8) (pane c .clip rp) pixels c

/-- A FILL of 2 by 2 elements. -/
def fillPlan : Plan := planFill (mkRecord [(0, 6), (16, 2), (18, 2), (20, 7)]) pixels

/-- An element at a stage. -/
def elem (ord : Nat) (st : Stage) : Elem :=
  { ord := ord, fill := false, stage := st, readAddr := 0x1000, writeAddr := 0x2000, value := 7 }

/-- A completion of a MARK. -/
def markDone : Completion :=
  { seq := 3, kind := 8, tag := 0, status := .ok, reason := .none, interim := false, urgent := false, context := 1,
    elements := 0, extra := 0, cursorAfter := 0xFFFFFFFF, mapVersion := 0, wraps := 0, aux := 0 }

/-- A post in flight. -/
def postOut : Post := { addr := 0x800, data := 0, discard := false }

/-- A read in flight. -/
def readOut (k : ReadKind) (d : Bool) : FetchRead := { kind := k, seq := 2, addr := 0x80, discard := d }

/-! ## Ill-formed commands -/

theorem test_enable_needs_its_bit : Instr.wellFormed (.enable 0x2) = false := by decide
theorem test_enable_yields_to_reset : Instr.wellFormed (.enable 0x3) = false := by decide
theorem test_soft_reset_needs_its_bit : Instr.wellFormed (.softReset 0x1) = false := by decide
theorem test_size_store_sets_neither : Instr.wellFormed (.sizeCodeStore 0x71) = false := by decide
theorem test_other_write_is_elsewhere : Instr.wellFormed (.registerWriteOther 0x20 0) = false := by decide
theorem test_other_write_is_aligned : Instr.wellFormed (.registerWriteOther 0x15 0) = false := by decide
theorem test_ordinals_are_bounded :
    Instr.wellFormed (.elementWriteAck 16777216) = false ∧
      Instr.wellFormed (.heldTransactionIssue (.element 16777216)) = false ∧
      Instr.wellFormed (.elementReadAck (.element 16777216) 0) = false ∧
      Instr.wellFormed (.elementErrorResponse (.element 16777216)) = false := by decide

/-! ## Values, walks and words of the spec -/

/-- The table of section 3.3.1. -/
theorem test_walk_table :
    (List.range 6).map (fun p => (walkX (rect .row false false) p, walkY (rect .row false false) p)) =
      [(10, 5), (11, 5), (12, 5), (10, 6), (11, 6), (12, 6)] ∧
    (List.range 6).map (fun p => (walkX (rect .row true true) p, walkY (rect .row true true) p)) =
      [(12, 6), (11, 6), (10, 6), (12, 5), (11, 5), (10, 5)] ∧
    (List.range 6).map (fun p => (walkX (rect .column true false) p, walkY (rect .column true false) p)) =
      [(12, 5), (12, 6), (11, 5), (11, 6), (10, 5), (10, 6)] ∧
    (List.range 6).map (fun p => (walkX (rect .column false true) p, walkY (rect .column false true) p)) =
      [(10, 6), (10, 5), (11, 6), (11, 5), (12, 6), (12, 5)] := by decide

/-- The addresses under the table of section 3.3.1. -/
theorem test_walk_addresses :
    walkAddr (rect .row false false) 1 = 268566 ∧ walkAddr (rect .row false false) 3 = 269844 := by decide

/-- Section 11.5.1: words of the T-port. -/
theorem test_tport_words :
    decodeTPortWrite 0x04 4 0x00000351 = .enable 0x351 ∧ decodeTPortWrite 0x04 4 0x3 = .softReset 0x3 ∧
      decodeTPortWrite 0x04 4 0x350 = .sizeCodeStore 0x350 ∧
      decodeTPortWrite 0x0C 4 1 = .controlRingBaseWrite .high 1 ∧ decodeTPortWrite 0x10 4 4 = .alertWordWrite 4 ∧
      decodeTPortWrite 0x30 4 9 = .producerIndexWrite (.tenant 1) 9 ∧
      decodeTPortWrite 0x5C 4 9 = .consumerIndexWrite (.tenant 6) 9 ∧
      decodeTPortWrite 0x20 2 9 = .tPortBadAccess true 0x20 2 ∧
      decodeTPortWrite 0x14 4 9 = .registerWriteOther 0x14 9 := by decide

/-! ## Single commands -/

/-- Tenant 1 posts at index 15 of 16. -/
def lastSlot : Tenant :=
  { state := .posting, current := some ⟨3, .failed⟩, cu := { writeIndex := 15, pending := some markDone,
                                                             post := some postOut } }

/-- Section 9.7: the lap of indices 15 and 16 in a ring of 16 slots. -/
theorem test_lap_inverts : (after (.postAck (.tenant 0)) (onWith lastSlot)).tenants.t1.cu.lap = false := by
  decide +kernel

/-- The submission ring of section 2.9. -/
def fetching : Tenant := { state := .running, producer := 6, chan := { fetchIndex := 3 } }

/-- Section 2.9: producer 20 refused against fetch 3 in 16 slots, 19 taken. -/
theorem test_producer_bounds :
    (after (.producerIndexWrite (.tenant 0) 20) (onWith fetching)).tenants.t1.cu.alert = some .index ∧
    (after (.producerIndexWrite (.tenant 0) 19) (onWith fetching)).tenants.t1.producer = 19 := by decide +kernel

/-- One urgent completion at index 3 unconsumed. -/
def consuming : Tenant := { state := .halted, cu := { writeIndex := 4, consumer := 3, urgent := true, lastUrgent := 3 } }

/-- Section 9.7 at 420 and 430: consumer 5 refused, 4 taken with the urgent flag cleared. -/
theorem test_consumer_bounds :
    (after (.consumerIndexWrite (.tenant 0) 5) (onWith consuming)).tenants.t1.cu.alert = some .index ∧
    (after (.consumerIndexWrite (.tenant 0) 4) (onWith consuming)).tenants.t1.cu.urgent = false := by decide +kernel

/-- A tenant in this state with a NORMAL read of index 2 in flight. -/
def reading (st : TState) : Tenant := { state := st, chan := { inFlight := some (readOut .normal false) } }

/-- Section 2.9: a MARK read while IDLE is taken, and the tenant is READY. -/
theorem test_idle_takes_head :
    (after (.fetchReadAck 0 (mkRecord [(0, 8)])) (onWith (reading .idle))).tenants.t1.state = .ready := by
  decide +kernel

/-- Section 2.9: an error response sets the stop and queues a failed entry. -/
theorem test_error_sets_stop :
    (after (.fetchReadError 0) (onWith (reading .running))).tenants.t1.chan = { stop := true, queue := [⟨2, .failed⟩] } := by
  decide +kernel

/-- The SURFACE of section 3.8. -/
def surfaceRecord : Record := mkRecord [(0, 1), (9, 2), (12, 262144), (16, 1280), (18, 640), (20, 480)]

/-- The WINDOW of section 3.8. -/
def windowRecord : Record :=
  mkRecord [(0, 2), (10, 1), (11, 1), (16, 10), (18, 5), (20, 12), (22, 6)]

/-- Section 3.8: the surface of the example passes, and the window on it opens. -/
theorem test_surface_and_window :
    (after .surface (granted surfaceRecord {})).tenants.t1.surfaces.s0 = some pixels ∧
    (after .window (granted windowRecord (painter 3 .clip .zero))).tenants.t1.window = some (pane 0 .wrap .hold) := by
  decide +kernel

/-- Section 4.8: a PROBE of page 16 reports its entry. -/
theorem test_probe_reports :
    (after .probe (granted (mkRecord [(0, 9), (8, 262144)]) (painter 0 .clip .hold))).tenants.t1.cu.pending.map
      (fun c => c.aux) = some 0xE0000005 := by decide +kernel

/-- Section 3.4: a window write at ordinal 5 of a window of area 6 under WRAP takes the cursor to 0. -/
theorem test_cursor_wraps :
    (after (.elementWriteAck 0) (running (putPlan 5 .wrap) (painter 5 .wrap .hold)
      { phase := .issuing, nextOrd := 1, outstanding := [elem 0 .writeIssued] })).tenants.t1.window =
      some (pane 0 .wrap .hold) := by decide +kernel

/-- Section 3.5: a PUT of 8 elements under CLIP from cursor 4 of area 6 takes up 2 and counts 6 as excess. -/
theorem test_clip_excess : takeUps (putPlan 4 .clip) = 2 ∧ excess (putPlan 4 .clip) = 6 := by decide +kernel

/-- A WAIT of this line, count and timeout. -/
def waitRecord (line count timeout : Nat) : Record := mkRecord [(0, 7), (8, line), (9, count), (12, timeout)]

/-- Tenant 1 waits for two arrivals of line 2. -/
def waiting (tally : Nat) (h : Bool) (timer : Option Nat) : Tenant :=
  { state := .waiting, current := some ⟨0, .record (waitRecord 2 2 4)⟩, wait := .counting 2 2 h, tally := tally, waitTimer := timer }

/-- The latch of line 2 is set. -/
def arriving (t : Tenant) : State := { onWith t with latches := { l2 := true } }

/-- Section 8.8: the last arrival ends the wait with OK. -/
theorem test_wait_ends :
    (after (.arrival 2) (arriving (waiting 1 false none))).tenants.t1.cu.pending.map
      (fun c => (c.status, c.elements, c.aux)) = some (.ok, 2, 0) := by decide +kernel

/-- Section 8.8, step 12: the arrival is taken in the timebase step itself, the timer then at 2. -/
theorem test_step_delivers :
    ((after .timebaseStep (arriving (waiting 0 true (some 3)))).tenants.t1.tally,
      (after .timebaseStep (arriving (waiting 0 true (some 3)))).tenants.t1.waitTimer) = (1, some 2) := by decide +kernel

/-- Section 8.6: the step that brings the timer to 0 halts the tenant, with the tally in elements done. -/
theorem test_step_expires :
    (after .timebaseStep (onWith (waiting 1 true (some 1)))).tenants.t1.haltReason = some .timeout ∧
    (after .timebaseStep (onWith (waiting 1 true (some 1)))).tenants.t1.cu.pending.map
      (fun c => (c.status, c.elements, c.interim)) = some (.timeout, 1, true) := by decide +kernel

/-- Section 8.8, step 14: with the expiry taken first, elements done is the tally before the arrival. -/
theorem test_expiry_first :
    (after (.waitTimeout 0) (arriving (waiting 1 true (some 1)))).tenants.t1.cu.pending.map
      (fun c => (c.status, c.elements)) = some (.timeout, 1) ∧
    (after (.arrival 2) (arriving (waiting 0 true (some 1)))).tenants.t1.cu.pending.map
      (fun c => (c.status, c.elements)) = some (.timeout, 1) := by decide +kernel

/-- Sections 8.2 and 8.4: an arrival delivered before the WAIT is begun is not counted; the WAIT is begun, or refused, in
the step that takes it. -/
theorem test_wait_begins_at_take :
    (after (.fetchReadAck 0 (waitRecord 2 3 4)) (after .timebaseStep (arriving (reading .idle)))).tenants.t1.wait =
      .counting 2 3 false ∧
    (after (.fetchReadAck 0 (waitRecord 4 3 4)) (onWith (reading .idle))).tenants.t1.state = .posting := by
  decide +kernel

/-- Context 0 with a post in flight. -/
def controlPosting : Control := { cu := { pending := some markDone, post := some postOut } }

/-- Context 0 after the error response to it. -/
def controlFailed : Control := { postStop := true, cu := { pending := some markDone } }

/-- Section 10.9: an error response to a control post stops the engine, and ENABLE writes the completion again. -/
theorem test_control_post_error :
    (after (.postError .control) { on with control := controlPosting }).engine = .ctlStopped ∧
    (after (.enable 1) { engine := .ctlStopped, control := controlFailed }).control.cu.post.isSome = true := by
  decide +kernel

/-- The ATTACH of these fields: target, weight, threshold, bases. -/
def attachRecord (n w h sq cq : Nat) : Record :=
  mkRecord [(0, 0x21), (8, n), (11, w), (12, h), (16, sq), (24, cq)]

/-- Section 10.9: the ATTACH acts in the step it is begun. -/
theorem test_attach_acts :
    (after .attach (control (attachRecord 1 1 1 0x4000 0x6000) {})).tenants.t1.state = .idle := by decide +kernel

/-! ## The hypotheses of the statements: the whole part -/

/-- Tenant 1 RUNNING with a MARK granted; the MARK waits at the front of the queue. -/
def busy : State := { granted (mkRecord [(0, 8)]) {} with pending := [.mark] }

theorem busy_tenants (k : TenantId) :
    (TenantRings (getTenant busy k) ∧ TenantTable (getTenant busy k) ∧
      ((getTenant busy k).state = .detached → getTenant busy k = detachedValues (getTenant busy k))) ∧
      segmentWf (getTenant busy k).segment = true ∧ (getTenant busy k).pendingMap = none := by
  have h : ∀ k, (getTenant busy k).cu.pending = none := by decide +kernel
  have hp : ∀ k, ProgressRow (getTenant busy k) := by unfold ProgressRow; decide +kernel
  have hw : ∀ k, WaitRow (getTenant busy k) := by unfold WaitRow; decide +kernel
  unfold TenantRings TenantTable CompletionRingOk
  simp only [h k, hp k, hw k, true_and, reduceCtorEq, false_implies, implies_true, and_true]
  revert k
  decide +kernel

/-- Every tenant of `busy` has its surfaces, its window and its progress record absent. -/
theorem busy_rows (k : TenantId) : WindowRow (getTenant busy k) ∧ StoppedRow (getTenant busy k) := by
  have h : ∀ k, (getTenant busy k).window = none ∧ (getTenant busy k).progress = none ∧
      ∀ i, slotGet (getTenant busy k).surfaces i = none := by decide +kernel
  obtain ⟨hw, hp, hs⟩ := h k
  simp [WindowRow, StoppedRow, hw, hp, hs]

/-- A sound state, not the one after reset, that a step takes to a next one. -/
theorem test_meets_StepKeeps : Sound busy ∧ ∃ t, step busy = .next t := by
  refine ⟨⟨?_, fun k => ⟨(busy_tenants k).1.2.1, (busy_tenants k).1.2.2⟩, ?_, ⟨?_, fun k => (busy_tenants k).1.1⟩, ?_, ⟨?_, ?_, ?_⟩,
    fun k => ⟨(busy_tenants k).2.1, ?_⟩⟩, ⟨_, rfl⟩⟩
  · unfold GrantInv; decide +kernel
  · unfold OffInv; decide +kernel
  · unfold ControlRings CompletionRingOk; decide +kernel
  · unfold CapacityInv; decide +kernel
  · unfold UnitInv; decide +kernel
  · intro k _; exact ⟨by decide +kernel, fun p hp => by cases hp⟩
  · intro k; exact busy_rows k
  · intro op h; simp [(busy_tenants k).2.2] at h

theorem test_meets_StepRunsTheFrontCommand : busy.pending = .mark :: [] := rfl

/-- A record that stopped by a halt and was retried. -/
def retried : Progress :=
  { cause := .halted, done := 2, cursorAtStart := none, wraps := 0, extra := 0, faultAddr := some 0 }

/-- A MAP_LOAD of one entry of page 511, the last, for this target. -/
def loadRecord (target first count : Nat) : Record :=
  mkRecord [(0, 0x25), (8, target), (10, first), (12, count), (16, 0xE0000005)]

/-- A MAP_CLEAR. -/
def clearRecord (target first count : Nat) : Record := mkRecord [(0, 0x26), (8, target), (10, first), (12, count)]

/-- The map of a READY tenant whose record halted before is loaded, and one written equal changes only its version. -/
theorem test_meets_MapChangesOnlyWithoutARun :
    (∃ t, exec .mapLoad (control (loadRecord 1 511 1) { state := .ready, progress := some retried }) = .next t ∧
      (getTenant t 0).segment ≠ [] ∧ (getTenant t 0).state = .ready ∧ (getTenant t 0).progress = some retried) ∧
    (∃ t, exec .mapClear (control (clearRecord 1 0 512) { state := .ready, progress := some retried }) = .next t ∧
      (getTenant t 0).mapVersion ≠ 0) := ⟨⟨_, rfl, by decide +kernel⟩, ⟨_, rfl, by decide +kernel⟩⟩

/-! ## Values, walks, translation -/

/-- The lowest and the highest bit of every size change. -/
theorem test_meets_WideningAndNarrowing :
    ((1 = 1 ∧ 2 = 2) ∨ (1 = 1 ∧ 2 = 4) ∨ (1 = 2 ∧ 2 = 4)) ∧ ((2 = 1 ∧ 4 = 2) ∨ (2 = 1 ∧ 4 = 4) ∨ (2 = 2 ∧ 4 = 4)) ∧
    ((4 = 2 ∧ 1 = 1) ∨ (4 = 4 ∧ 1 = 1) ∨ (4 = 4 ∧ 1 = 2)) ∧ 0 < 32 ∧ 31 < 32 ∧
    (255 : Word).toNat < 2 ^ (8 * 1) ∧ (0xFFFFFFFF : Word).toNat < 2 ^ (8 * 4) := by decide

/-- The first and last ordinal and the corners of a rectangle of one element and of the table of section 3.3.1. -/
theorem test_meets_WalkVisitsEachPositionOnce :
    0 < (rect .row true false).width ∧ 0 < (rect .row true false).height ∧
      0 < (rect .row true false).width * (rect .row true false).height ∧
      5 < (rect .row true false).width * (rect .row true false).height ∧
      (rect .row true false).x0 ≤ 10 ∧ 12 < (rect .row true false).x0 + (rect .row true false).width ∧
      (rect .row true false).y0 ≤ 5 ∧ 6 < (rect .row true false).y0 + (rect .row true false).height := by decide

/-- The last logical address; a present and an absent page, with every permission. -/
theorem test_meets_TranslationChecksAndAddress :
    8388607 < 8388608 ∧ (segGet [] (8388607 / 16384)).v = false ∧
    (segGet [(511, openEntry)] (8388607 / 16384)).v = true ∧ (segGet [(511, openEntry)] 511).r = true ∧
    (segGet [(511, openEntry)] 511).w = true ∧ (segGet [(511, { openEntry with r := false })] 511).r = false ∧
    (segGet [(511, { openEntry with w := false })] 511).w = false := by decide

theorem test_meets_AliasedEntriesAreCheckedApart :
    16383 < 16384 ∧
    (segGet [(0, openEntry), (511, { openEntry with w := false })] 0).v = true ∧
    (segGet [(0, openEntry), (511, { openEntry with w := false })] 511).v = true ∧
    (segGet [(0, openEntry), (511, { openEntry with w := false })] 0).ppn =
      (segGet [(0, openEntry), (511, { openEntry with w := false })] 511).ppn ∧
    (segGet [(0, openEntry), (511, { openEntry with w := false })] 0).r = true ∧
    (segGet [(0, openEntry), (511, { openEntry with w := false })] 511).w = false := by decide

theorem test_meets_MapEntryWordLayout :
    11 < 12 ∧ 31 < 32 ∧ segmentWf [(0, openEntry), (511, openEntry)] = true ∧ 511 + 1 ≤ 512 ∧ 511 ≤ 511 ∧
      511 < 511 + 1 := by decide

/-- The last tenant kind code and the first control kind code; a record and a failed entry as the current record. -/
theorem test_meets_CompletionAndReportLayout :
    kindOfCode 9 = some .probe ∧ kindOfCode 33 = some .attach ∧
    (holding 8 {}).current = some ⟨3, .record 8⟩ ∧
    ({ current := some ⟨3, .failed⟩ } : Tenant).current = some ⟨3, .failed⟩ := by decide +kernel

/-! ## The T-port -/

/-- One well-formed command of each register write. -/
theorem test_meets_RegisterWritesDecodeToTheirCommands :
    ∀ i ∈ [Instr.producerIndexWrite .control 0, .producerIndexWrite (.tenant 6) 0xFFFFFFFF,
      .consumerIndexWrite .control 0, .consumerIndexWrite (.tenant 6) 0xFFFFFFFF, .alertWordWrite 0xFF, .enable 1,
      .softReset 3, .sizeCodeStore 0x770, .controlRingBaseWrite .low 1, .controlRingBaseWrite .high 0xFF,
      .registerWriteOther 0x1C 0, .registerWriteOther 0x60 0, .registerWriteOther 0xFC 1],
      i.wellFormed = true ∧ isRegisterWrite i = true := by decide

/-- The words with no register at both ends of their ranges; the three error responses. -/
theorem test_meets_RegisterReads :
    on.rstAsserted = false ∧
    (∀ o ∈ [0x14#8, 0x1C#8, 0x60#8, 0xFC#8], o.toNat % 4 = 0 ∧ ((0x14 ≤ o.toNat ∧ o.toNat < 0x20) ∨ 0x60 ≤ o.toNat)) ∧
    ({ rstAsserted := true } : State).rstAsserted = true ∧ 2 ≠ 4 ∧ (0x22#8).toNat % 4 ≠ 0 := by decide

theorem test_meets_ControlRingBaseHalves :
    hostTaken {} ∧ hostTaken on ∧ hostTaken { engine := .ctlStopped } ∧
    (({ engine := .resetting } : State).rstAsserted = false ∧ ({ engine := .resetting } : State).engine = .resetting) ∧
    (({} : State).engine = .off ∧ ∃ t u, exec (.enable 1) {} = .next t ∧
      exec (.controlRingBaseWrite .low 0xFFFFFFFF) t = .next u) := by
  unfold hostTaken; exact ⟨by decide, by decide, by decide, by decide, rfl, _, _, rfl, rfl⟩

/-- An attached tenant with an empty ring of 16 slots: 16 taken, 17 refused; a detached one; context 0 with and without a
read in flight, and in OFF. -/
theorem test_meets_ProducerIndexWrites :
    hostTaken (onWith { state := .idle }) ∧ attached (getTenant (onWith { state := .idle }) 0) = true ∧
    ((16 : Word).extractLsb' 0 16 - (getTenant (onWith { state := .idle }) 0).chan.fetchIndex).toNat ≤
      16 * 2 ^ (getTenant (onWith { state := .idle }) 0).sqCode ∧
    16 * 2 ^ (getTenant (onWith { state := .idle }) 0).sqCode <
      ((17 : Word).extractLsb' 0 16 - (getTenant (onWith { state := .idle }) 0).chan.fetchIndex).toNat ∧
    attached (getTenant on 0) = false ∧ serving on = true ∧
    ((16 : Word).extractLsb' 0 16 -
      (match on.control.inFlight with | some r => r.seq | none => on.control.fetchIndex)).toNat ≤
        16 * 2 ^ on.control.sqCode ∧
    16 * 2 ^ on.control.sqCode < ((17 : Word).extractLsb' 0 16 -
      (match on.control.inFlight with | some r => r.seq | none => on.control.fetchIndex)).toNat ∧
    hostTaken {} ∧ ({} : State).engine = .off := by
  unfold hostTaken; decide +kernel

/-- Write index 4, consumer 3, in a tenant's unit and in context 0's: 4 is taken, 3 is the old index, 5 is refused. -/
theorem test_meets_ConsumerIndexWrites :
    let s : State := { onWith consuming with control := { cu := consuming.cu } };
    hostTaken s ∧ serving s = true ∧ attached (getTenant s 0) = true ∧
    (4 : Word).extractLsb' 0 16 ≠ (getTenant s 0).cu.consumer ∧
    ((4 : Word).extractLsb' 0 16 - (getTenant s 0).cu.consumer).toNat ≤
      ((getTenant s 0).cu.writeIndex - (getTenant s 0).cu.consumer).toNat ∧
    (3 : Word).extractLsb' 0 16 = (getTenant s 0).cu.consumer ∧
    ((getTenant s 0).cu.writeIndex - (getTenant s 0).cu.consumer).toNat <
      ((5 : Word).extractLsb' 0 16 - (getTenant s 0).cu.consumer).toNat ∧
    attached (getTenant s 1) = false ∧
    (4 : Word).extractLsb' 0 16 ≠ s.control.cu.consumer ∧
    ((4 : Word).extractLsb' 0 16 - s.control.cu.consumer).toNat ≤
      (s.control.cu.writeIndex - s.control.cu.consumer).toNat ∧
    (3 : Word).extractLsb' 0 16 = s.control.cu.consumer ∧
    (s.control.cu.writeIndex - s.control.cu.consumer).toNat <
      ((5 : Word).extractLsb' 0 16 - s.control.cu.consumer).toNat ∧
    hostTaken {} ∧ ({} : State).engine = .off := by
  unfold hostTaken; decide +kernel

theorem test_meets_AlertWordWriteClears : hostTaken on ∧ (getTenant on 6).cu.alert = none := by
  unfold hostTaken; decide +kernel

/-- CTL_STOPPED with these fields of the control context. -/
def stopped (c : Control) : State := { engine := .ctlStopped, control := c }

/-- The NOTE record. -/
def noteRecord : Record := mkRecord [(0, 0x29)]

/-- The completion of a kept entry refused for its kind. -/
def refusedEntry (r : Record) (reason : Reason) : Completion :=
  controlCompletion { seq := 7, data := r, op := .executing } .invalid reason 0 0 0 0

/-- Codes 5 and 3 written, and code 7 written twice; each way CTL_STOPPED is left: nothing kept, a post written again in
the last free slot, a post beside a read, a current record beside an entry with a pending completion (section 10.9), an
entry of a control, a tenant and no kind. -/
theorem test_meets_EnableAndSizeCodes :
    hostTaken {} ∧ (5 : BitVec 3) = (if (0x351 : Word).extractLsb' 4 3 = 7 then ({} : State).sqCode
      else (0x351 : Word).extractLsb' 4 3) ∧
    (3 : BitVec 3) = (if (0x351 : Word).extractLsb' 8 3 = 7 then ({} : State).cqCode
      else (0x351 : Word).extractLsb' 8 3) ∧
    (0 : BitVec 3) = (if (0x771 : Word).extractLsb' 4 3 = 7 then ({} : State).sqCode
      else (0x771 : Word).extractLsb' 4 3) ∧
    ({} : State).engine = .off ∧ hostTaken on ∧ on.engine = .on ∧
    hostTaken (stopped {}) ∧ (stopped {}).engine = .ctlStopped ∧ (stopped {}).control.entry = none ∧
    (let s := stopped { producer := 1, cu := { pending := some markDone, writeIndex := 15 } };
      s.control.producer ≠ s.control.fetchIndex ∧ s.control.inFlight = none ∧ s.control.entry = none ∧
      s.control.current = none ∧ s.control.cu.pending = some markDone ∧ s.control.cu.post = none ∧
      (s.control.cu.writeIndex - s.control.cu.consumer).toNat < 16 * 2 ^ s.control.cqCode) ∧
    ¬((stopped { cu := { writeIndex := 16 } }).control.cu.writeIndex - 0).toNat < 16 * 2 ^ 0 ∧
    (let s := stopped { current := some (ctl noteRecord), entry := some ⟨7, noteRecord⟩,
                        cu := { pending := some markDone } };
      s.control.current ≠ none ∧ s.control.entry = some ⟨7, noteRecord⟩ ∧ s.control.cu.pending = some markDone) ∧
    (∀ r ∈ [noteRecord, mkRecord [(0, 8)], mkRecord [(0, 0x20)]],
      let s := stopped { entry := some ⟨7, r⟩ };
      s.control.current = none ∧ s.control.entry = some ⟨7, r⟩) ∧
    kindOf noteRecord = some .note ∧ isTenantKind .note = false ∧
    kindOf (mkRecord [(0, 8)]) = some .mark ∧ isTenantKind .mark = true ∧ kindOf (mkRecord [(0, 0x20)]) = none ∧
    (after (.enable 1) (stopped { entry := some ⟨7, mkRecord [(0, 8)]⟩ })).control.cu.pending =
      some (refusedEntry (mkRecord [(0, 8)]) .tenantOnly) ∧
    (after (.enable 1) (stopped { entry := some ⟨7, mkRecord [(0, 8)]⟩ })).control.cu.post.isSome = true := by
  unfold hostTaken
  repeat' first | apply And.intro | refine List.forall_mem_cons.2 ⟨?_, ?_⟩ | exact List.forall_mem_nil _
  all_goals decide +kernel

/-- RESETTING, tenant 1 as given. -/
def resetting (t : Tenant) : State := { onWith t with engine := .resetting }

/-- Nothing outstanding, one transaction outstanding, and RESETTING with none, one and two; a transaction of each kind to be
dropped. -/
theorem test_meets_SoftResetWriteAndEnd :
    (0 : BitVec 3) = (if (0x772 : Word).extractLsb' 4 3 = 7 then on.sqCode else (0x772 : Word).extractLsb' 4 3) ∧
    (0 : BitVec 3) = (if (0x772 : Word).extractLsb' 8 3 = 7 then on.cqCode else (0x772 : Word).extractLsb' 8 3) ∧
    hostTaken (onWith (reading .idle)) ∧ mportOutstanding (onWith (reading .idle)) ≠ 0 ∧
    hostTaken on ∧ mportOutstanding on = 0 ∧
    (resetting {}).engine = .resetting ∧ mportOutstanding (resetting {}) = 0 ∧
    mportOutstanding (resetting (reading .idle)) = 1 ∧
    1 < mportOutstanding (resetting { reading .idle with cu := { pending := some markDone, post := some postOut } }) ∧
    (∀ k ∈ [ReadKind.normal, .refetch], ∀ d ∈ [true, false],
      (getTenant (resetting { chan := { inFlight := some (readOut k d) } }) 0).chan.inFlight = some (readOut k d)) ∧
    (∀ d ∈ [true, false],
      let s := resetting { cu := { pending := some markDone, post := some { postOut with discard := d } } };
      (getTenant s 0).cu.post = some { postOut with discard := d } ∧ (getTenant s 0).cu.pending ≠ none) ∧
    (let s : State := { resetting {} with
       control := { inFlight := some (readOut .normal false), query := some ⟨64, 0, 0⟩,
                    cu := { pending := some markDone, post := some postOut } } };
      s.control.inFlight = some (readOut .normal false) ∧ PostOutstanding s.control.cu markDone ∧
      s.control.query ≠ none) ∧
    (∀ st ∈ [Stage.readIssued, .writeIssued],
      let s : State := { running (putPlan 0 .clip) {} { outstanding := [elem 0 st] } with engine := .resetting };
      s.engine = .resetting ∧ Names s 0 (putPlan 0 .clip) (.element 0) [st] (elem 0 st) ∧
      Names s 0 (putPlan 0 .clip) (.element 0) [.readIssued, .writeIssued] (elem 0 st)) := by
  unfold hostTaken PostOutstanding Names
  repeat' first | apply And.intro | refine List.forall_mem_cons.2 ⟨?_, ?_⟩ | exact List.forall_mem_nil _
  all_goals decide +kernel

theorem test_meets_PowerOnResetAndOtherAccesses :
    hostTaken on ∧ ({ rstAsserted := true } : State).rstAsserted = true ∧ 8 ≠ 4 ∧ (0x21#8).toNat % 4 ≠ 0 ∧
    isRegisterWrite (.producerIndexWrite (.tenant 6) 0) = true ∧ isRegisterWrite (.enable 1) = true ∧
    ({ engine := .resetting } : State).rstAsserted = false ∧ ({ engine := .resetting } : State).engine = .resetting := by
  unfold hostTaken; decide +kernel

theorem test_meets_NotifyLines :
    (({ rstAsserted := true } : State).rstAsserted = true ∨ ({ engine := .resetting } : State).engine = .resetting) ∧
    hostTaken {} ∧ hostTaken on := by
  unfold hostTaken; decide +kernel

/-! ## The timer unit -/

/-- Timers that stand at 1, the lowest value a step may find, and an arrival on the line counted. -/
def ticking : State := arriving { waiting 0 true (some 1) with holdoffTimer := some 1 }

theorem ticking_rows (k : TenantId) : WaitRow (getTenant ticking k) := by
  unfold WaitRow; revert k; decide +kernel

theorem test_meets_SyncEdgeAndTimebaseStep :
    hostTaken ticking ∧ (∀ k, WaitRow (getTenant ticking k)) ∧
    ({ rstAsserted := true } : State).rstAsserted = true ∧
    (({ engine := .resetting } : State).engine = .resetting ∧ ({ engine := .resetting } : State).rstAsserted = false) := by
  unfold hostTaken; exact ⟨by decide +kernel, ticking_rows, rfl, rfl, rfl⟩

/-- A tenant that counts on the line, one that does not, and a line whose latch is clear. -/
theorem test_meets_ArrivalCounts :
    hostTaken ticking ∧ getLine ticking.latches 2 = true ∧ (∀ k, WaitRow (getTenant ticking k)) ∧
    (getTenant ticking 0).wait = .counting 2 2 true ∧ (getTenant ticking 1).wait = .stopped ∧
    getLine ticking.latches 1 = false := by
  unfold hostTaken; exact ⟨by decide +kernel, rfl, ticking_rows, rfl, rfl, rfl⟩

theorem test_meets_TimersExpire :
    hostTaken ticking ∧ (∀ k, WaitRow (getTenant ticking k)) ∧ (getTenant ticking 0).waitTimer = some 1 ∧
    (getTenant ticking 0).holdoffTimer = some 1 ∧ (getTenant ticking 1).waitTimer ≠ some 1 ∧
    (getTenant ticking 1).holdoffTimer ≠ some 1 := by
  unfold hostTaken; exact ⟨by decide +kernel, ticking_rows, rfl, rfl, by decide +kernel, by decide +kernel⟩

/-- Tenant 1 holds a WAIT of this line, count and timeout that is not begun. -/
def waitState (line count timeout : Nat) : State :=
  onWith { holding (waitRecord line count timeout) {} with state := .waiting }

/-- Tenant 1's post is in flight, with a WAIT of this line, count and timeout at its head, or under a TIMEOUT halt. -/
def waitPosted (line count timeout : Nat) (halted : Bool) : State :=
  let cu : CompletionUnit := { pending := some markDone, post := some postOut }
  onWith (if halted then { holding (waitRecord line count timeout) {} with
      state := .halted, haltReason := some .timeout, recovery := some .retryAfterPost, cu := cu }
    else { state := .posting, current := some ⟨2, .failed⟩, cu := cu,
           chan := { queue := [⟨3, .record (waitRecord line count timeout)⟩] } })

/-- Lines 0, 3 and 4, counts 0, 1, 15 and 16, with and without a timeout. -/
theorem test_meets_WaitBeginsOrIsRefused :
    (∀ f ∈ [(0, 1, 0), (3, 15, 65535), (4, 1, 0), (0, 0, 0), (0, 16, 1)],
      let s := waitState f.1 f.2.1 f.2.2;
      let r := waitRecord f.1 f.2.1 f.2.2;
      let p := waitPosted f.1 f.2.1 f.2.2 false;
      let h := waitPosted f.1 f.2.1 f.2.2 true;
      serving s = true ∧ (getTenant s 0).state = .waiting ∧ (getTenant s 0).wait = .stopped ∧
      (getTenant s 0).current = some ⟨3, .record r⟩ ∧ kindOf r = some .wait ∧
      serving p = true ∧ PostOutstanding (getTenant p 0).cu markDone ∧ (getTenant p 0).state = .posting ∧
      (getTenant p 0).chan.queue = [⟨3, .record r⟩] ∧
      serving h = true ∧ PostOutstanding (getTenant h 0).cu markDone ∧ (getTenant h 0).state = .halted ∧
      (getTenant h 0).recovery = some .retryAfterPost ∧ (getTenant h 0).haltReason = some .timeout ∧
      (getTenant h 0).current = some ⟨3, .record r⟩ ∧
      byteAt r 8 = f.1 ∧ byteAt r 9 = f.2.1 ∧ halfAt r 12 = f.2.2) ∧
    3 ≤ 3 ∧ 1 ≤ 1 ∧ 15 ≤ 15 ∧ 3 < 4 ∧ 15 < 16 ∧ serving {} = false ∧ (getTenant ticking 0).wait ≠ .stopped := by
  unfold PostOutstanding
  repeat' first | apply And.intro | refine List.forall_mem_cons.2 ⟨?_, ?_⟩ | exact List.forall_mem_nil _
  all_goals decide +kernel

/-! ## The fetch unit -/

/-- A tenant with one record to fetch and `n` entries queued. -/
def fetchable (n : Nat) : Tenant :=
  { state := .idle, producer := 1, chan := { queue := List.replicate n ⟨9, .failed⟩ } }

/-- A read is issued with three entries queued; each condition, failing alone. -/
theorem test_meets_FetchReadIssued :
    (let s := onWith (fetchable 3);
      serving s = true ∧ attached (getTenant s 0) = true ∧ (getTenant s 0).producer ≠ (getTenant s 0).chan.fetchIndex ∧
      (getTenant s 0).chan.inFlight = none ∧ (getTenant s 0).chan.queue.length < 4 ∧
      (getTenant s 0).chan.stop = false ∧ (getTenant s 0).drainRequested = false ∧
      (getTenant s 0).chan.refetchWaiting = false) ∧
    serving {} = false ∧ attached (getTenant on 0) = false ∧
    (getTenant on 0).producer = (getTenant on 0).chan.fetchIndex ∧
    (getTenant (onWith (reading .idle)) 0).chan.inFlight ≠ none ∧
    4 ≤ (getTenant (onWith (fetchable 4)) 0).chan.queue.length := by decide +kernel

/-- A halted tenant with a NORMAL read in flight and a REFETCH waiting. -/
def refetchBehind : Tenant :=
  { state := .halted, current := some ⟨1, .failed⟩, haltReason := some .fetchError,
    recovery := some .refetchOutstanding, chan := { inFlight := some (readOut .normal false), refetchWaiting := true } }

theorem test_meets_FetchReadAnswered :
    (∀ st ∈ [TState.running, .idle],
      let s := onWith (reading st);
      s.engine ≠ .resetting ∧ ReadOutstanding (getTenant s 0) (readOut .normal false) .normal false ∧
      (getTenant s 0).state = st ∧ (getTenant s 0).chan.refetchWaiting = false ∧ (getTenant s 0).chan.queue = []) ∧
    (let s := onWith refetchBehind;
      s.engine ≠ .resetting ∧ ReadOutstanding (getTenant s 0) (readOut .normal false) .normal false ∧
      (getTenant s 0).state ≠ .idle ∧ (getTenant s 0).chan.refetchWaiting = true ∧
      (getTenant s 0).current = some ⟨1, .failed⟩) := by
  unfold ReadOutstanding; decide +kernel

/-- Context 0 in this engine state. -/
def controlIn (e : Engine) (c : Control) : State := { engine := e, control := c }

/-- A read in flight on context 0, with this current record. -/
def controlReading (c : Option CtlRecord) : Control := { current := c, inFlight := some (readOut .normal false) }

theorem test_meets_ControlChannel :
    (let s := controlIn .on { producer := 1, current := some (ctl noteRecord) };
      s.engine = .on ∧ s.control.producer ≠ s.control.fetchIndex ∧ s.control.inFlight = none ∧
      s.control.entry = none ∧ s.control.current = some (ctl noteRecord) ∧ (ctl noteRecord).op = .executing) ∧
    (let s := controlIn .on { producer := 1, current := some { ctl noteRecord with op := .waitingTarget } };
      s.control.current = some { ctl noteRecord with op := .waitingTarget }) ∧
    (controlIn .ctlStopped {}).engine ≠ .on ∧ (controlIn .on {}).control.producer = (controlIn .on {}).control.fetchIndex ∧
    (let s := controlIn .on (controlReading none);
      s.control.inFlight = some (readOut .normal false) ∧ s.control.entry = none ∧ s.engine = .on ∧
      s.control.current = none) ∧
    kindOf (mkRecord [(0, 0x2A)]) = none ∧
    (kindOf (mkRecord [(0, 9)]) = some .probe ∧ isTenantKind .probe = true) ∧
    (kindOf noteRecord = some .note ∧ isTenantKind .note = false) ∧
    (let s := controlIn .on (controlReading (some (ctl noteRecord)));
      s.control.inFlight = some (readOut .normal false) ∧ s.control.entry = none ∧ s.engine = .on ∧
      s.control.current ≠ none) ∧
    (controlIn .ctlStopped (controlReading none)).engine = .ctlStopped := by decide +kernel

theorem test_meets_RefetchAnswered :
    let t : Tenant := { refetchBehind with
      chan := { inFlight := some (readOut .refetch false), stop := true } };
    (onWith t).engine ≠ .resetting ∧ ReadOutstanding (getTenant (onWith t) 0) (readOut .refetch false) .refetch false ∧
      (getTenant (onWith t) 0).state = .halted := by
  unfold ReadOutstanding; decide +kernel

/-- A marked read, IDLE and drained, IDLE and not, and with a REFETCH waiting; a marked post and one that is not. -/
theorem test_meets_DiscardedAnswers :
    (let s := onWith { state := .idle, drainRequested := true, chan := { inFlight := some (readOut .normal true) } };
      s.engine ≠ .resetting ∧ (getTenant s 0).chan.inFlight = some (readOut .normal true) ∧
      (readOut .normal true).discard = true ∧ (getTenant s 0).chan.refetchWaiting = false ∧
      (getTenant s 0).state = .idle ∧ (getTenant s 0).drainRequested = true ∧ (getTenant s 0).current = none ∧
      (getTenant s 0).chan.queue = []) ∧
    (let s := onWith { state := .idle, chan := { inFlight := some (readOut .normal true) } };
      (getTenant s 0).chan.inFlight = some (readOut .normal true) ∧ (getTenant s 0).drainRequested = false) ∧
    (let s := onWith { refetchBehind with chan := { inFlight := some (readOut .normal true), refetchWaiting := true } };
      (getTenant s 0).chan.inFlight = some (readOut .normal true) ∧ (getTenant s 0).chan.refetchWaiting = true ∧
      (getTenant s 0).state ≠ .idle ∧ (getTenant s 0).current = some ⟨1, .failed⟩) ∧
    (∀ d ∈ [true, false],
      let s := onWith { cu := { post := some { postOut with discard := d } } };
      s.engine ≠ .resetting ∧ (getTenant s 0).cu.post = some { postOut with discard := d }) := by decide +kernel

/-! ## Grants and the checks of the first grant -/

/-- Tenant 1 READY with this progress record, the rotation pointer at tenant 2. -/
def readyState (g : Option Progress) : State :=
  { onWith { holding (mkRecord [(0, 6), (16, 2), (18, 2)]) {} with state := .ready, progress := g } with rotation := 1 }

/-- The arbiter's request for tenant `k` is in progress. -/
def requested (s : State) (k : TenantId) : State := { s with grantInProgress := some k }

theorem test_meets_GrantPicksNextInRotation :
    (∀ g ∈ [none, some retried],
      let s := readyState g;
      serving s = true ∧ s.tu.phase = .free ∧ s.grantInProgress = none ∧ (getTenant s 0).state = .ready ∧
      (∀ j : TenantId, (j - s.rotation).val < ((0 : TenantId) - s.rotation).val → (getTenant s j).state ≠ .ready) ∧
      (getTenant s 0).progress = g ∧
      (getTenant s 0).current = some ⟨3, .record (mkRecord [(0, 6), (16, 2), (18, 2)])⟩ ∧
      (requested s 0).grantInProgress = some 0 ∧ (requested s 6).grantInProgress = some 6 ∧
      (getTenant (requested s 6) 6).state ≠ .ready) ∧
    serving {} = false ∧ busy.tu.phase ≠ .free ∧ (∀ k, (getTenant (requested on 0) k).state ≠ .ready) ∧
    serving (requested on 0) = true ∧ (requested on 0).tu.phase = .free := by decide +kernel

/-- Sections 1.1, 5.1 and 10.4: a request in progress is taken for its tenant, though another stands first in the
rotation; a DETACH before it is taken leaves it on its way, and it is then dropped. -/
theorem test_grant_request_taken_or_dropped :
    (let s := requested { setTenant (readyState none) 1 { state := .ready } with rotation := 1 } 0;
      (after .grant s).tu.granted = some 0 ∧ (after .grant s).rotation = 1 ∧
        (after .grant s).grantInProgress = none) ∧
    (let s := requested (control (mkRecord [(0, 0x22), (8, 1)]) { state := .ready, current := some ⟨3, .record 8⟩ }) 0;
      (after .detach s).grantInProgress = some 0 ∧ (after .grant (after .detach s)).grantInProgress = none ∧
        (after .grant (after .detach s)).tu.granted = none) := by decide +kernel

/-- A SURFACE of slot, size, base, pitch, width and height. -/
def surfaceOf' (slot size base pitch width height : Nat) : Record :=
  mkRecord [(0, 1), (8, slot), (9, size), (12, base), (16, pitch), (18, width), (20, height)]

/-- The checks of SURFACE, by section 3.1.1. -/
abbrev surfaceBad (r : Record) : Prop :=
  3 < byteAt r 8 ∨ (byteAt r 9 ≠ 1 ∧ byteAt r 9 ≠ 2 ∧ byteAt r 9 ≠ 4) ∨ halfAt r 18 = 0 ∨ 4096 < halfAt r 18 ∨
    halfAt r 20 = 0 ∨ 4096 < halfAt r 20 ∨ halfAt r 16 < byteAt r 9 * halfAt r 18 ∨ 65532 < halfAt r 16
abbrev surfaceUnaligned (r : Record) : Prop := (wordAt r 12).toNat % byteAt r 9 ≠ 0 ∨ halfAt r 16 % byteAt r 9 ≠ 0
abbrev surfaceOutside (r : Record) : Prop :=
  8388608 < (wordAt r 12).toNat + (halfAt r 20 - 1) * halfAt r 16 + halfAt r 18 * byteAt r 9

/-- The record is one that a first grant of tenant 1, with these tables, is about to check. -/
abbrev Checked (r : Record) (t : Tenant) (kd : Kind) : Prop :=
  FirstGrant (granted r t) 0 r kd ∧ (getTenant (granted r t) 0).pendingMap = none

/-- Each check at the first value it refuses; the last byte of the logical space taken, and the next refused. -/
theorem test_meets_SurfaceRecord :
    (∀ r ∈ [surfaceOf' 4 1 0 1 1 1, surfaceOf' 0 3 0 3 1 1, surfaceOf' 0 1 0 1 0 1, surfaceOf' 0 1 0 4097 4097 1,
        surfaceOf' 0 1 0 1 1 0, surfaceOf' 0 1 0 1 1 4097, surfaceOf' 0 2 0 3 2 1, surfaceOf' 0 1 0 65533 1 1],
      Checked r {} .surface ∧ surfaceBad r) ∧
    (∀ r ∈ [surfaceOf' 3 2 1 2 1 1, surfaceOf' 0 4 0 6 1 1], Checked r {} .surface ∧ ¬surfaceBad r ∧ surfaceUnaligned r) ∧
    (∀ r ∈ [surfaceOf' 0 1 8388607 2 2 1],
      Checked r {} .surface ∧ ¬surfaceBad r ∧ ¬surfaceUnaligned r ∧ surfaceOutside r) ∧
    (∀ r ∈ [surfaceOf' 3 4 8388604 65532 1 1, surfaceOf' 0 1 0 4096 4096 2048],
      Checked r {} .surface ∧ ¬surfaceBad r ∧ ¬surfaceUnaligned r ∧ ¬surfaceOutside r) := by
  unfold Checked FirstGrant
  repeat' first | apply And.intro | refine List.forall_mem_cons.2 ⟨?_, ?_⟩ | exact List.forall_mem_nil _
  all_goals decide +kernel

/-- A WINDOW of slot, order, write policy, read policy and corners. -/
def windowOf' (slot order wp rp x0 y0 x1 y1 : Nat) : Record :=
  mkRecord [(0, 2), (8, slot), (9, order), (11, wp), (12, rp), (16, x0), (18, y0), (20, x1), (22, y1)]

abbrev windowBad (r : Record) : Prop :=
  3 < byteAt r 8 ∨ 1 < byteAt r 9 ∨ 1 < byteAt r 11 ∨ 2 < byteAt r 12 ∨ halfAt r 20 < halfAt r 16 ∨
    halfAt r 22 < halfAt r 18

theorem test_meets_WindowRecord :
    (∀ r ∈ [windowOf' 4 0 0 0 0 0 0 0, windowOf' 0 2 0 0 0 0 0 0, windowOf' 0 0 2 0 0 0 0 0, windowOf' 0 0 0 3 0 0 0 0,
        windowOf' 0 0 0 0 1 0 0 0, windowOf' 0 0 0 0 0 1 0 0], Checked r {} .window ∧ windowBad r) ∧
    (let r := windowOf' 3 1 1 2 0 0 0 0;
      Checked r {} .window ∧ ¬windowBad r ∧ byteAt r 8 = 3 ∧ slotGet (getTenant (granted r {}) 0).surfaces 3 = none) ∧
    (∀ r ∈ [windowOf' 0 0 0 0 640 0 640 0, windowOf' 0 0 0 0 0 480 0 480],
      Checked r (painter 0 .clip .hold) .window ∧ ¬windowBad r ∧
      slotGet (getTenant (granted r (painter 0 .clip .hold)) 0).surfaces 0 = some pixels ∧
      (pixels.width ≤ halfAt r 20 ∨ pixels.height ≤ halfAt r 22)) ∧
    (let r := windowOf' 0 1 1 2 639 479 639 479;
      Checked r (painter 0 .clip .hold) .window ∧ ¬windowBad r ∧ pixels.width > halfAt r 20 ∧
      pixels.height > halfAt r 22) := by
  unfold Checked FirstGrant
  repeat' first | apply And.intro | refine List.forall_mem_cons.2 ⟨?_, ?_⟩ | exact List.forall_mem_nil _
  all_goals decide +kernel

/-- The first address outside the logical space and the last inside. -/
theorem test_meets_MarkAndProbe :
    Checked (mkRecord [(0, 8)]) {} .mark ∧
    Checked (mkRecord [(0, 9), (8, 8388608)]) {} .probe ∧ 8388608 ≤ (wordAt (mkRecord [(0, 9), (8, 8388608)]) 8).toNat ∧
    Checked (mkRecord [(0, 9), (8, 8388607)]) {} .probe ∧
    (wordAt (mkRecord [(0, 9), (8, 8388607)]) 8).toNat < 8388608 := by
  unfold Checked FirstGrant
  repeat' first | apply And.intro | refine List.forall_mem_cons.2 ⟨?_, ?_⟩ | exact List.forall_mem_nil _
  all_goals decide +kernel

abbrev linearBad (r : Record) : Prop :=
  (wordAt r 16).toNat = 0 ∨ 16777215 < (wordAt r 16).toNat ∨ (byteAt r 8 ≠ 1 ∧ byteAt r 8 ≠ 2 ∧ byteAt r 8 ≠ 4)

abbrev linearModeOk (kd : Kind) (r : Record) (f : Surface) : Prop :=
  (if kd = .put then byteAt r 8 else f.size) = (if kd = .put then f.size else byteAt r 8) ∨
    ((if kd = .put then byteAt r 8 else f.size) < (if kd = .put then f.size else byteAt r 8) ∧ byteAt r 9 ≤ 2) ∨
    ((if kd = .put then f.size else byteAt r 8) < (if kd = .put then byteAt r 8 else f.size) ∧
      (byteAt r 9 = 3 ∨ byteAt r 9 = 4))

/-- A PUT (3) or GET (4): each check at the first value it refuses, over the 2-byte surface of `painter`; a window whose
slot is empty; and the starts, with the last byte of the logical space. -/
theorem test_meets_PutAndGetStart :
    (∀ c ∈ [(3, Kind.put), (4, Kind.get)],
      (∀ r ∈ [linear c.1 2 0 0 0, linear c.1 2 0 0 16777216, linear c.1 3 0 0 1],
        Checked r (painter 0 .clip .hold) c.2 ∧ linearBad r) ∧
      (let r := linear c.1 2 0 0 1;
        Checked r {} c.2 ∧ ¬linearBad r ∧ (getTenant (granted r {}) 0).window = none ∧
        Checked r { window := some (pane 0 .clip .hold) } c.2 ∧
        (getTenant (granted r { window := some (pane 0 .clip .hold) }) 0).window = some (pane 0 .clip .hold) ∧
        slotGet (getTenant (granted r { window := some (pane 0 .clip .hold) }) 0).surfaces (pane 0 .clip .hold).slot =
          none) ∧
      (∀ r ∈ [linear c.1 1 3 0 1, linear c.1 4 2 0 1, linear c.1 4 5 0 1],
        Checked r (painter 0 .clip .hold) c.2 ∧ ¬linearBad r ∧ (c.2 = .put → ¬linearModeOk c.2 r pixels)) ∧
      (let r := linear c.1 2 9 1 1;
        Checked r (painter 0 .clip .hold) c.2 ∧ ¬linearBad r ∧ linearModeOk c.2 r pixels ∧ 1 % byteAt r 8 ≠ 0) ∧
      (let r := linear c.1 2 0 8388606 2;
        Checked r (painter 0 .clip .hold) c.2 ∧ ¬linearBad r ∧ linearModeOk c.2 r pixels ∧
        8388606 % byteAt r 8 = 0 ∧ 8388608 < 8388606 + (wordAt r 16).toNat * byteAt r 8) ∧
      (let r := linear c.1 2 0 8388606 1;
        Checked r (painter 0 .clip .hold) c.2 ∧ ¬linearBad r ∧ linearModeOk c.2 r pixels ∧
        8388606 % byteAt r 8 = 0 ∧ ¬8388608 < 8388606 + (wordAt r 16).toNat * byteAt r 8)) ∧
    (∀ r ∈ [linear 4 4 3 0 1, linear 4 1 2 0 1, linear 4 1 5 0 1],
      Checked r (painter 0 .clip .hold) .get ∧ ¬linearBad r ∧ ¬linearModeOk .get r pixels) ∧
    (∀ r ∈ [linear 4 4 2 0 1, linear 4 1 3 0 1, linear 4 1 4 0 1], linearModeOk .get r pixels) ∧
    (getTenant (granted (linear 3 2 0 0 1) (painter 0 .clip .hold)) 0).window = some (pane 0 .clip .hold) ∧
    slotGet (getTenant (granted (linear 3 2 0 0 1) (painter 0 .clip .hold)) 0).surfaces 0 = some pixels ∧
    (pane 6 .wrap .hold).writePolicy = .wrap ∧ (pane 5 .clip .hold).cursor < windowArea (pane 5 .clip .hold) ∧
    windowArea (pane 6 .clip .hold) ≤ (pane 6 .clip .hold).cursor := by
  unfold Checked FirstGrant
  repeat' first | apply And.intro | refine List.forall_mem_cons.2 ⟨?_, ?_⟩ | exact List.forall_mem_nil _
  all_goals decide +kernel

/-- A COPY of source, destination, order, mode, source and destination corner, width and height. -/
def copyOf (a b o m sx sy dx dy w h : Nat) : Record :=
  mkRecord [(0, 5), (8, a), (9, b), (10, o), (12, m), (16, sx), (18, sy), (20, dx), (22, dy), (24, w), (26, h)]

/-- A FILL of slot, corner, width and height. -/
def fillOf (a x y w h : Nat) : Record := mkRecord [(0, 6), (8, a), (12, x), (14, y), (16, w), (18, h)]

abbrev copyBad (r : Record) : Prop :=
  3 < byteAt r 8 ∨ 3 < byteAt r 9 ∨ 1 < byteAt r 10 ∨ halfAt r 24 = 0 ∨ 4096 < halfAt r 24 ∨ halfAt r 26 = 0 ∨
    4096 < halfAt r 26
abbrev copyOutside (r : Record) (src dst : Surface) : Prop :=
  src.width < halfAt r 16 + halfAt r 24 ∨ src.height < halfAt r 18 + halfAt r 26 ∨
    dst.width < halfAt r 20 + halfAt r 24 ∨ dst.height < halfAt r 22 + halfAt r 26
abbrev fillBad (r : Record) : Prop :=
  3 < byteAt r 8 ∨ halfAt r 16 = 0 ∨ 4096 < halfAt r 16 ∨ halfAt r 18 = 0 ∨ 4096 < halfAt r 18

/-- Each check of a COPY from slot 0 (2 bytes) to slot 1 (1 byte), and of a FILL, at the first value it refuses; a whole
surface passes. -/
theorem test_meets_CopyAndFillStart :
    (∀ r ∈ [copyOf 4 0 0 0 0 0 0 0 1 1, copyOf 0 4 0 0 0 0 0 0 1 1, copyOf 0 0 2 0 0 0 0 0 1 1,
        copyOf 0 0 0 0 0 0 0 0 0 1, copyOf 0 0 0 0 0 0 0 0 4097 1, copyOf 0 0 0 0 0 0 0 0 1 0,
        copyOf 0 0 0 0 0 0 0 0 1 4097], Checked r (painter 0 .clip .hold) .copy ∧ copyBad r) ∧
    (let r := copyOf 0 2 0 0 0 0 0 0 1 1;
      Checked r (painter 0 .clip .hold) .copy ∧ ¬copyBad r ∧ slotGet (painter 0 .clip .hold).surfaces 2 = none) ∧
    (let r := copyOf 0 1 0 2 0 0 0 0 1 1;
      Checked r (painter 0 .clip .hold) .copy ∧ ¬copyBad r ∧ 1 < 2 ∧ byteAt r 12 ≠ 3 ∧ byteAt r 12 ≠ 4) ∧
    (∀ r ∈ [copyOf 0 1 0 3 1 0 0 0 640 1, copyOf 0 1 0 3 0 1 0 0 1 480, copyOf 0 1 0 4 0 0 1 0 640 1,
        copyOf 0 1 0 4 0 0 0 1 1 480], Checked r (painter 0 .clip .hold) .copy ∧ ¬copyBad r ∧
      copyOutside r pixels { pixels with size := 1 }) ∧
    (let r := copyOf 0 1 1 4 0 0 0 0 640 480;
      Checked r (painter 0 .clip .hold) .copy ∧ ¬copyBad r ∧ ¬copyOutside r pixels { pixels with size := 1 } ∧
      slotGet (painter 0 .clip .hold).surfaces 0 = some pixels ∧
      slotGet (painter 0 .clip .hold).surfaces 1 = some { pixels with size := 1 } ∧ byteAt r 12 = 4) ∧
    (∀ r ∈ [fillOf 4 0 0 1 1, fillOf 0 0 0 0 1, fillOf 0 0 0 4097 1, fillOf 0 0 0 1 0, fillOf 0 0 0 1 4097],
      Checked r (painter 0 .clip .hold) .fill ∧ fillBad r) ∧
    (Checked (fillOf 3 0 0 1 1) (painter 0 .clip .hold) .fill ∧ ¬fillBad (fillOf 3 0 0 1 1) ∧
      slotGet (painter 0 .clip .hold).surfaces 3 = none) ∧
    (∀ r ∈ [fillOf 0 1 0 640 1, fillOf 0 0 1 1 480], Checked r (painter 0 .clip .hold) .fill ∧ ¬fillBad r ∧
      (pixels.width < halfAt r 12 + halfAt r 16 ∨ pixels.height < halfAt r 14 + halfAt r 18)) ∧
    (let r := fillOf 0 0 0 640 480;
      Checked r (painter 0 .clip .hold) .fill ∧ ¬fillBad r ∧
      ¬(pixels.width < halfAt r 12 + halfAt r 16 ∨ pixels.height < halfAt r 14 + halfAt r 18)) := by
  unfold Checked FirstGrant
  repeat' first | apply And.intro | refine List.forall_mem_cons.2 ⟨?_, ?_⟩ | exact List.forall_mem_nil _
  all_goals decide +kernel

/-- The last ordinal of a COPY; the lowest and the highest bit of each destination size. -/
theorem test_meets_ElementPlacementAndValue :
    (let r := copyOf 0 1 1 4 0 0 0 0 640 480;
      307199 < halfAt r 24 * halfAt r 26) ∧
    (putPlan 0 .clip).dstSize = 2 ∧ 15 < 8 * (putPlan 0 .clip).dstSize ∧ (getPlan 0 .hold).dstSize = 2 ∧
    (let t := painter 0 .clip .hold;
      kindOf (linear 3 2 0 0 8) = some .put ∧ kindOf (linear 4 2 0 0 8) = some .get ∧
      t.window = some (pane 0 .clip .hold) ∧ slotGet t.surfaces (pane 0 .clip .hold).slot = some pixels) ∧
    (let r := copyOf 0 1 1 4 0 0 0 0 640 480;
      kindOf r = some .copy ∧ byteAt r 10 ≤ 1 ∧ byteAt r 8 = 0 ∧ byteAt r 9 = 1) ∧
    kindOf (fillOf 3 0 0 1 1) = some .fill ∧ byteAt (fillOf 3 0 0 1 1) 8 = 3 := by
  decide +kernel

/-! ## The element pipeline -/

/-- The unit issues from this ordinal with these elements outstanding. -/
def issuingAt (j : Nat) (out : List Elem) : TransferUnit := { phase := .issuing, nextOrd := j, outstanding := out }

/-- The unit drains for this cause. -/
def drainingFor (c : DrainCause) (out : List Elem) (f : Option Faulting) : TransferUnit :=
  { phase := .draining c, outstanding := out, faulting := f }

/-- A faulting element. -/
def faultAt (ord : Nat) : Faulting := { ord := ord, addr := 2 * ord, status := .faultAbsent, reason := .none }

/-- Tenant 1 with its tables and no page present. -/
def pageless (t : Tenant) : Tenant := { t with segment := [] }

/-- Tenant 1 with a window under HOLD at cursor 6 that keeps this value. -/
def heldTenant (v : Option Word) : Tenant :=
  { painter 6 .clip .hold with window := some { pane 6 .clip .hold with held := v } }

theorem issuing_still (s : State) (ord : Nat) (h : s.tu.phase = .issuing) : StillIssues s ord := by
  simp [StillIssues, h]

/-- No place left, and one; the last ordinal taken up, and one before it; each way an element begins. -/
theorem test_meets_TakeUpElement :
    (let p := putPlan 4 .clip;
      let s := running p (painter 4 .clip .hold) (issuingAt 1 (List.replicate 7 (elem 0 .readIssued)));
      let s8 := running p (painter 4 .clip .hold) (issuingAt 1 (List.replicate 8 (elem 0 .readIssued)));
      UnderGrant s8 0 p .issuing ∧ 8 ≤ s8.tu.outstanding.length ∧
      UnderGrant (running p {} (issuingAt 2 [])) 0 p .issuing ∧ takeUps p ≤ (running p {} (issuingAt 2 [])).tu.nextOrd ∧
      UnderGrant s 0 p .issuing ∧ s.tu.outstanding.length < 8 ∧ s.tu.nextOrd < takeUps p ∧ elementReads p 1 = true ∧
      translateAccess (getTenant s 0).segment (srcAddr p 1) .read = .phys 81922 ∧
      translateAccess (getTenant (running p (pageless (painter 4 .clip .hold)) (issuingAt 1 [])) 0).segment
        (srcAddr p 1) .read = .fault .faultAbsent) ∧
    (let s := running fillPlan (painter 0 .clip .hold) (issuingAt 3 []);
      UnderGrant s 0 fillPlan .issuing ∧ s.tu.nextOrd < takeUps fillPlan ∧ elementReads fillPlan 3 = false ∧
      fillPlan.kind = .fill ∧
      translateAccess (getTenant s 0).segment (dstAddr fillPlan 3) .write = .phys 83202 ∧
      translateAccess [] (dstAddr fillPlan 3) .write = .fault .faultAbsent) ∧
    (let p := getPlan 6 .zero;
      let s := running p (painter 6 .clip .zero) (issuingAt 0 []);
      UnderGrant s 0 p .issuing ∧ 0 < takeUps p ∧ elementReads p 0 = false ∧ p.kind = .get ∧ p.policy = .zero) ∧
    (let p := getPlan 6 .hold;
      let s := running p (heldTenant (some 9)) (issuingAt 0 []);
      let s' := running p (heldTenant none) (issuingAt 0 []);
      UnderGrant s 0 p .issuing ∧ elementReads p 0 = false ∧ p.kind = .get ∧ p.policy = .hold ∧
      heldValue (getTenant s 0) = some 9 ∧ s.tu.outstanding = [] ∧ s'.tu.outstanding = [] ∧
      UnderGrant s' 0 p .issuing ∧ heldValue (getTenant s' 0) = none ∧
      translateAccess (getTenant s' 0).segment (fillAddr p) .read = .phys 89620 ∧
      translateAccess [] (fillAddr p) .read = .fault .faultAbsent) ∧
    (let p := getPlan 5 .hold;
      let s := running p (painter 5 .clip .hold) (issuingAt 1 [elem 0 .readIssued]);
      UnderGrant s 0 p .issuing ∧ elementReads p 1 = false ∧ p.kind = .get ∧ p.policy = .hold ∧
      s.tu.outstanding = [elem 0 .readIssued] ∧ elementReads p 0 = true ∧ isLast p 0 = true) := by
  unfold UnderGrant
  and_intros <;> decide +kernel

/-- Sections 4.3 and 5.2.1: an overrun element waits for the record's own read of the window's last element, though an
older held value is present, and is then taken up with the value that read returned. -/
theorem test_hold_waits_for_own_last_read :
    let w := { pane 5 .clip .hold with held := some 9 };
    let t := { painter 5 .clip .hold with window := some w };
    let s := running (getPlan 5 .hold) t (issuingAt 1 [elem 0 .readIssued]);
    (after .takeUp s).tu.outstanding.map (fun e => e.ord) = [0] ∧
      (after .takeUp (after (.elementReadAck (.element 0) 5) s)).tu.outstanding.map (fun e => e.ord) = [0, 1] ∧
      (after .takeUp (after (.elementReadAck (.element 0) 5) s)).tu.outstanding.all (fun e => e.value == 5) = true := by
  decide +kernel

/-- An element that reads or writes the two bytes from this address. -/
def held (ord : Nat) (st : Stage) (a : Phys) : Elem := { elem ord st with readAddr := a, writeAddr := a }

/-- The PUT of `putPlan` with an issued write at 0x2000 and element 1 held at this address. -/
def holdingState (st : Stage) (a : Phys) : State :=
  running (putPlan 0 .clip) (painter 0 .clip .hold) (issuingAt 2 [held 0 .writeIssued 0x2000, held 1 st a])

/-- The last address that meets the two bytes at 0x2000, and the first that does not; one holder in flight, one that is
held, and two. -/
theorem test_meets_HeldTransactionIssued :
    (∀ st ∈ [Stage.readHeld, .writeHeld], ∀ a ∈ [(0x2001 : Phys), 0x2002],
      serving (holdingState st a) = true ∧
      Names (holdingState st a) 0 (putPlan 0 .clip) (.element 1) [.readHeld, .writeHeld] (held 1 st a) ∧
      (holdingState st a).tu.phase = .issuing ∧ (holdingState st a).tu.outstanding.Nodup ∧
      blocked (getTenant (holdingState st a) 0).segment (putPlan 0 .clip) [held 0 .writeIssued 0x2000] 1
        (st == .writeHeld) a 2 = decide (a = 0x2001)) ∧
    blocked [] (putPlan 0 .clip) [held 0 .writeHeld 0x2000] 1 true 0x2001 2 = true ∧
    blocked [] (putPlan 0 .clip) [held 0 .readIssued 0x2000] 1 true 0x2001 2 = true ∧
    StillIssues (holdingState .readHeld 0x2001) 1 ∧
    StillIssues (running (putPlan 0 .clip) {} (drainingFor .halt [held 1 .readHeld 0] (some (faultAt 2)))) 1 := by
  unfold Names
  refine ⟨?_, by decide +kernel, by decide +kernel, issuing_still _ _ rfl, by decide, ?_⟩
  · repeat' first | apply And.intro | refine List.forall_mem_cons.2 ⟨?_, ?_⟩ | exact List.forall_mem_nil _
    all_goals decide +kernel
  · intro _ f hf
    cases hf
    decide

/-- Sections 4.3 and 12.1: the acknowledgement of the write that holds it issues the held write, and so does its own
command. -/
theorem test_hold_ends_with_the_write :
    (after (.elementWriteAck 0) (holdingState .writeHeld 0x2001)).tu.outstanding.map (fun e => (e.ord, e.stage)) =
      [(1, .writeIssued)] ∧
    (after (.heldTransactionIssue (.element 1)) (holdingState .writeHeld 0x2001)).tu.done = 1 := by decide +kernel

/-- A PUT element answered: stopped for, faulting at its write, held and issued; a fill read answered. -/
theorem test_meets_ElementReadAcknowledged :
    (let p := putPlan 0 .clip;
      let e := held 1 .readIssued 0x2000;
      let s := running p (painter 0 .clip .hold) (issuingAt 2 [held 0 .writeIssued 0x2000, e]);
      s.engine ≠ .resetting ∧ Names s 0 p (.element 1) [.readIssued] e ∧ e.fill = false ∧
      translateAccess (getTenant s 0).segment (dstAddr p 1) .write = .phys 88342 ∧
      blocked (getTenant s 0).segment p s.tu.outstanding 1 true 88342 2 = false ∧
      (let s' := running p (painter 0 .clip .hold) (issuingAt 2 [held 0 .writeIssued 88343, e]);
        Names s' 0 p (.element 1) [.readIssued] e ∧
        blocked (getTenant s' 0).segment p s'.tu.outstanding 1 true 88342 2 = true) ∧
      (let s' := running p (pageless (painter 0 .clip .hold)) (issuingAt 2 [e]);
        Names s' 0 p (.element 1) [.readIssued] e ∧
        translateAccess (getTenant s' 0).segment (dstAddr p 1) .write = .fault .faultAbsent) ∧
      (let s' := running p {} (drainingFor .abort [e] none);
        Names s' 0 p (.element 1) [.readIssued] e ∧ s'.tu.phase = .draining .abort) ∧
      (let s' := running p {} (drainingFor .halt [e] (some (faultAt 0)));
        Names s' 0 p (.element 1) [.readIssued] e ∧ s'.tu.phase = .draining .halt ∧
        s'.tu.faulting = some (faultAt 0) ∧ (faultAt 0).ord < e.ord)) ∧
    (let p := getPlan 6 .hold;
      let e : Elem := { held 0 .readIssued 0x2000 with fill := true };
      Names (running p (heldTenant none) (issuingAt 0 [e])) 0 p .fill [.readIssued] e ∧ e.fill = true) ∧
    StillIssues (running (putPlan 0 .clip) {} (issuingAt 2 [])) 1 := by
  unfold Names
  exact ⟨by decide +kernel, by decide +kernel, issuing_still _ _ rfl⟩

/-- An acknowledged write in ISSUING and in an ABORT drain; the ordinals behind it, and the wraps at their limit. -/
theorem test_meets_ElementWriteAcknowledged :
    (let p := putPlan 5 .wrap;
      let e := elem 1 .writeIssued;
      let s := running p (painter 0 .wrap .hold)
        { issuingAt 4 [e] with done := 1, ended := [2, 3], wraps := 65535 };
      s.engine ≠ .resetting ∧ Names s 0 p (.element 1) [.writeIssued] e ∧ s.tu.phase = .issuing ∧
      s.tu.done ≤ 1 ∧ 1 ∉ s.tu.ended ∧ s.tu.ended.Pairwise (· < ·) ∧ (∀ x ∈ s.tu.ended, s.tu.done < x) ∧
      s.tu.wraps ≤ 65535 ∧
      Names (running p {} (drainingFor .abort [e] none)) 0 p (.element 1) [.writeIssued] e) := by
  unfold Names; decide +kernel

/-- Sections 5.2.1 and 5.6: in an ABORT drain the prefix advances too. -/
theorem test_abort_advances_prefix :
    (after (.elementWriteAck 0) (running (putPlan 0 .wrap) {} (drainingFor .abort [elem 0 .writeIssued] none))).tu.done =
      1 := by decide +kernel

theorem test_meets_ElementErrorResponse :
    (∀ st ∈ [Stage.readIssued, .writeIssued],
      let p := putPlan 0 .clip;
      let e := held 1 st 0x2000;
      let s := running p {} (issuingAt 2 [e]);
      s.engine ≠ .resetting ∧ Names s 0 p (.element 1) [.readIssued, .writeIssued] e ∧ s.tu.phase = .issuing ∧
      e.stage = st ∧
      (let s' := running p {} (drainingFor .halt [e] (some (faultAt 1)));
        Names s' 0 p (.element 1) [.readIssued, .writeIssued] e ∧ s'.tu.phase = .draining .halt ∧
        s'.tu.faulting = some (faultAt 1) ∧ (faultAt 1).ord ≤ e.ord ∧
        (∀ x ∈ s'.tu.outstanding, (faultAt 1).ord ≤ x.ord → inFlightStage x.stage = true)) ∧
      (let s' := running p {} (drainingFor .abort [e] none);
        Names s' 0 p (.element 1) [.readIssued, .writeIssued] e ∧ s'.tu.phase = .draining .abort)) ∧
    StillIssues (running (putPlan 0 .clip) {} (issuingAt 2 [])) 1 := by
  unfold Names
  exact ⟨by decide +kernel, issuing_still _ _ rfl⟩

/-- Tenant 1 RUNNING with a PUT as sequence 3. -/
def putting : Tenant := holding (linear 3 2 0 0 8) (painter 0 .clip .hold)

theorem test_meets_DrainFinishAndPreempt :
    (let p := putPlan 0 .clip;
      let s := running p putting (drainingFor .finish [] none);
      UnderGrant s 0 p (.draining .finish) ∧ s.tu.outstanding = [] ∧ (getTenant s 0).pendingMap = none ∧
      (getTenant s 0).current = some ⟨3, .record (linear 3 2 0 0 8)⟩) ∧
    (let p := putPlan 0 .clip;
      let s := running p putting (drainingFor .preempt [] none);
      UnderGrant s 0 p (.draining .preempt) ∧ s.tu.outstanding = []) ∧
    (running fillPlan {} (drainingFor .finish [elem 0 .readIssued] none)).tu.outstanding ≠ [] := by
  unfold UnderGrant; decide +kernel

/-- A fault at the record's first element, and at a later one. -/
theorem test_meets_DrainHalt :
    ∀ n ∈ [0, 1],
      let p := putPlan 0 .clip;
      let s := running p putting (drainingFor .halt [] (some (faultAt n)));
      UnderGrant s 0 p (.draining .halt) ∧ s.tu.outstanding = [] ∧ s.tu.faulting = some (faultAt n) ∧
      haltReasonOf (faultAt n).status = some .absent ∧ (getTenant s 0).pendingMap = none ∧
      (getTenant s 0).current = some ⟨3, .record (linear 3 2 0 0 8)⟩ := by
  unfold UnderGrant; decide +kernel

/-! ## The map unit -/

/-- The record is the current control record, about to be carried out, tenant 1 as given. -/
abbrev Begun (r : Record) (t : Tenant) (kd : Kind) : Prop := Executing (control r t) (ctl r) kd

/-- The checks of MAP_LOAD and MAP_CLEAR, by section 6.5. -/
abbrev loadBad (r : Record) : Prop :=
  511 < halfAt r 10 ∨ byteAt r 12 = 0 ∨ 12 < byteAt r 12 ∨ 512 < halfAt r 10 + byteAt r 12
abbrev clearBad (r : Record) : Prop :=
  511 < halfAt r 10 ∨ halfAt r 12 = 0 ∨ 512 < halfAt r 12 ∨ 512 < halfAt r 10 + halfAt r 12

/-- Each check at the first value it refuses and the last it takes; a target that is DETACHED, holds a run, holds none. -/
theorem test_meets_MapOperations :
    (∀ r ∈ [loadRecord 0 0 1, loadRecord 8 0 1], Begun r {} .mapLoad ∧ (byteAt r 8 = 0 ∨ 7 < byteAt r 8)) ∧
    (∀ r ∈ [loadRecord 1 512 1, loadRecord 1 0 0, loadRecord 1 0 13, loadRecord 1 511 2],
      Begun r {} .mapLoad ∧ byteAt r 8 = 1 ∧ loadBad r) ∧
    (∀ r ∈ [clearRecord 1 512 1, clearRecord 1 0 0, clearRecord 1 0 513, clearRecord 1 511 2],
      Begun r {} .mapClear ∧ byteAt r 8 = 1 ∧ clearBad r) ∧
    (∀ t ∈ [({} : Tenant), { state := .running }, { state := .idle, segment := [(16, openEntry)] }],
      Begun (loadRecord 1 500 12) t .mapLoad ∧ ¬loadBad (loadRecord 1 500 12) ∧
      Begun (clearRecord 1 0 512) t .mapClear ∧ ¬clearBad (clearRecord 1 0 512)) ∧
    (({} : Tenant).state = .detached ∧ ({ state := .running } : Tenant).state = .running ∧
      ({ state := .idle } : Tenant).state ≠ .ready ∧ ({ retried with cause := .preempted } : Progress).cause = .preempted ∧
      segmentWf [(16, openEntry)] = true) := by
  unfold Begun Executing
  repeat' first | apply And.intro | refine List.forall_mem_cons.2 ⟨?_, ?_⟩ | exact List.forall_mem_nil _
  all_goals decide +kernel

/-- A MAP_CLEAR waits for the run of tenant 1, in a drain of this cause. -/
def mapWaits (c : DrainCause) (f : Option Faulting) : State :=
  { running (putPlan 0 .clip) { putting with pendingMap := some (.clear 0 512) } (drainingFor c [] f) with
    control := { current := some { ctl (clearRecord 1 0 512) with op := .waitingTarget } } }

theorem test_meets_MapPendingApply :
    (let s := mapWaits .finish none;
      UnderGrant s 0 (putPlan 0 .clip) (.draining .finish) ∧ s.tu.outstanding = [] ∧
      (getTenant s 0).pendingMap = some (.clear 0 512) ∧
      s.control.current = some { ctl (clearRecord 1 0 512) with op := .waitingTarget }) ∧
    (let s := mapWaits .halt (some (faultAt 1));
      UnderGrant s 0 (putPlan 0 .clip) (.draining .halt) ∧ s.tu.outstanding = [] ∧
      (getTenant s 0).pendingMap = some (.clear 0 512) ∧ s.tu.faulting = some (faultAt 1) ∧
      haltReasonOf (faultAt 1).status = some .absent) ∧
    (getTenant on 0).pendingMap = none := by
  unfold UnderGrant; decide +kernel

/-- A map operation pends while tenant 1 is granted for the first time with this record. -/
def grantWaits (r : Record) : State :=
  { granted r { painter 6 .clip .hold with pendingMap := some (.clear 0 512) } with
    control := { current := some { ctl (clearRecord 1 0 512) with op := .waitingTarget } } }

/-- A record that ends within its grant for each way of doing so, and one that starts. -/
theorem test_meets_MapPendingApply_within_a_grant :
    (∀ x ∈ [(surfaceRecord, Kind.surface), (mkRecord [(0, 1), (8, 4)], .surface), (windowRecord, .window),
        (mkRecord [(0, 8)], .mark), (mkRecord [(0, 9)], .probe), (linear 3 2 0 0 8, .put), (linear 4 2 0 0 8, .get),
        (copyOf 0 1 0 4 0 0 0 0 1 1, .copy), (fillOf 0 0 0 1 1, .fill)],
      FirstGrant (grantWaits x.1) 0 x.1 x.2 ∧ (getTenant (grantWaits x.1) 0).pendingMap = some (.clear 0 512) ∧
      (grantWaits x.1).control.current = some { ctl (clearRecord 1 0 512) with op := .waitingTarget }) ∧
    (after .put (grantWaits (linear 3 2 0 0 8))).tenants.t1.mapVersion = 1 ∧
    (after .get (grantWaits (linear 4 2 0 0 8))).tenants.t1.pendingMap = some (.clear 0 512) := by
  unfold FirstGrant
  repeat' first | apply And.intro | refine List.forall_mem_cons.2 ⟨?_, ?_⟩ | exact List.forall_mem_nil _
  all_goals decide +kernel

/-! ## The completion unit -/

/-- A completion of a PUT of 8 elements. -/
def putDone : Completion := { markDone with kind := 3, elements := 8 }

/-- Tenant 1 POSTING this completion at this write index, with this report. -/
def postingState (c : Completion) (w : Index) (a : Option AckReport) : State :=
  onWith { state := .posting, current := some ⟨3, .failed⟩, ackReport := a, cu := { writeIndex := w, pending := some c } }

abbrev Covered (s : State) (c : Completion) : Prop :=
  c.kind.toNat < 3 ∨ 6 < c.kind.toNat ∨ c.elements = 0 ∨
    ((getTenant s 0).ackReport.any fun a => decide (a.seq = c.seq ∧ c.elements ≤ a.count)) = true

abbrev Room (cu : CompletionUnit) (code : Nat) : Prop := (cu.writeIndex - cu.consumer).toNat < 16 * 2 ^ code

/-- The last free slot and none; covered by the kind, by no elements, by the report; each condition failing alone. -/
theorem test_meets_PostIssued :
    (∀ s ∈ [(postingState markDone 15 none, markDone), (postingState { putDone with elements := 0 } 15 none,
        { putDone with elements := 0 }), (postingState putDone 15 (some ⟨3, 8⟩), putDone)],
      serving s.1 = true ∧ (getTenant s.1 0).cu.pending = some s.2 ∧ (getTenant s.1 0).cu.post = none ∧
      Room (getTenant s.1 0).cu (getTenant s.1 0).cqCode ∧ attached (getTenant s.1 0) = true ∧
      (getTenant s.1 0).haltReason ≠ some .postError ∧ Covered s.1 s.2) ∧
    ¬Room (getTenant (postingState markDone 16 none) 0).cu (getTenant (postingState markDone 16 none) 0).cqCode ∧
    ¬Covered (postingState putDone 0 (some ⟨3, 7⟩)) putDone ∧ ¬Covered (postingState putDone 0 none) putDone ∧
    (getTenant (onWith lastSlot) 0).cu.post ≠ none ∧ (getTenant (onWith lastSlot) 0).cu.pending = some markDone ∧
    (let s : State := { on with control := { cu := { pending := some markDone, writeIndex := 15 } } };
      serving s = true ∧ s.control.cu.pending = some markDone ∧ s.control.cu.post = none ∧
      Room s.control.cu s.control.cqCode ∧ s.control.postStop = false) ∧
    (let s : State := stopped controlFailed;
      serving s = true ∧ s.control.cu.pending = some markDone ∧ s.control.postStop = true) ∧
    serving {} = false := by
  repeat' first | apply And.intro | refine List.forall_mem_cons.2 ⟨?_, ?_⟩ | exact List.forall_mem_nil _
  all_goals decide +kernel

/-- A post in flight of tenant 1 in this state, with this halt reason, step and queue. -/
def postedState (st : TState) (h : Option HaltReason) (r : Option Recovery) (q : List Entry) : State :=
  onWith { state := st, current := some ⟨3, .failed⟩, haltReason := h, recovery := r, chan := { queue := q },
           cu := { pending := some markDone, post := some postOut } }

/-- Context 0 with a post in flight and this entry. -/
def controlPosted (e : Engine) (n : Option CtlEntry) : State := controlIn e { controlPosting with entry := n }

theorem test_meets_PostAcknowledged :
    (∀ s ∈ [postedState .posting none none [⟨4, .failed⟩], postedState .posting none none [],
        postedState .halted (some .fetchError) none [], postedState .halted (some .timeout) (some .retryAfterPost) [],
        postedState .halted (some .fetchError) (some .skipAfterPost) []],
      s.engine ≠ .resetting ∧ PostOutstanding (getTenant s 0).cu markDone) ∧
    (getTenant (postedState .posting none none [⟨4, .failed⟩]) 0).chan.queue = [⟨4, .failed⟩] ∧
    (getTenant (postedState .posting none none []) 0).chan.queue = [] ∧
    (getTenant (postedState .halted (some .timeout) (some .retryAfterPost) []) 0).recovery = some .retryAfterPost ∧
    (getTenant (postedState .halted (some .timeout) (some .retryAfterPost) []) 0).haltReason ≠ some .postError ∧
    (∀ s ∈ [controlPosted .ctlStopped none, controlPosted .on none, controlPosted .on (some ⟨6, mkRecord [(0, 0x20)]⟩),
        controlPosted .on (some ⟨6, mkRecord [(0, 8)]⟩), controlPosted .on (some ⟨6, noteRecord⟩)],
      s.engine ≠ .resetting ∧ PostOutstanding s.control.cu markDone) ∧
    kindOf (mkRecord [(0, 0x20)]) = none ∧ (kindOf (mkRecord [(0, 8)]) = some .mark ∧ isTenantKind .mark = true) ∧
    (kindOf noteRecord = some .note ∧ isTenantKind .note = false) := by
  unfold PostOutstanding
  repeat' first | apply And.intro | refine List.forall_mem_cons.2 ⟨?_, ?_⟩ | exact List.forall_mem_nil _
  all_goals decide +kernel

theorem test_meets_PostError :
    (∀ s ∈ [postedState .posting none none [], postedState .halted (some .timeout) (some .retryAfterPost) []],
      s.engine ≠ .resetting ∧ PostOutstanding (getTenant s 0).cu markDone ∧
      ((getTenant s 0).state = .posting ∨ (getTenant s 0).state = .halted)) ∧
    (∀ s ∈ [controlPosted .on none, controlPosted .ctlStopped none],
      (s.engine = .on ∨ s.engine = .ctlStopped) ∧ PostOutstanding s.control.cu markDone) := by
  unfold PostOutstanding
  repeat' first | apply And.intro | refine List.forall_mem_cons.2 ⟨?_, ?_⟩ | exact List.forall_mem_nil _
  all_goals decide +kernel

/-! ## Control records -/

abbrev attachBad (r : Record) : Prop :=
  6 < byteAt r 9 ∨ 6 < byteAt r 10 ∨ byteAt r 11 = 0 ∨ 8 < byteAt r 11 ∨ byteAt r 12 = 0 ∨ 32 < byteAt r 12 ∨
    4095 < halfAt r 14 ∨ 2 ^ 40 ≤ longAt r 16 ∨ 2 ^ 40 ≤ longAt r 24
abbrev attachUnaligned (r : Record) : Prop := longAt r 16 % 64 ≠ 0 ∨ longAt r 24 % 32 ≠ 0

/-- A target number that names no tenant. -/
abbrev NoTenant (r : Record) : Prop := byteAt r 8 = 0 ∨ 7 < byteAt r 8

/-- A control record of this kind for this target, with more fields. -/
def controlRecord (kind target : Nat) (fields : List (Nat × Nat)) : Record :=
  mkRecord ((0, kind) :: (8, target) :: fields)

theorem test_meets_AttachRecord :
    (∀ r ∈ [attachRecord 0 1 1 0 0, attachRecord 8 1 1 0 0], Begun r {} .attach ∧ NoTenant r) ∧
    (∀ f ∈ [[(9, 7), (11, 1), (12, 1)], [(10, 7), (11, 1), (12, 1)], [(12, 1)], [(11, 9), (12, 1)], [(11, 1)],
        [(11, 1), (12, 33)], [(11, 1), (12, 1), (14, 4096)], [(11, 1), (12, 1), (16, 1099511627776)],
        [(11, 1), (12, 1), (24, 1099511627776)]],
      Begun (controlRecord 0x21 1 f) {} .attach ∧ byteAt (controlRecord 0x21 1 f) 8 = 1 ∧
      attachBad (controlRecord 0x21 1 f)) ∧
    (∀ r ∈ [attachRecord 1 1 1 32 0, attachRecord 1 1 1 0 16],
      Begun r {} .attach ∧ ¬attachBad r ∧ attachUnaligned r) ∧
    (let r := attachRecord 1 8 32 0xFFFFFFFFC0 0xFFFFFFFFE0;
      Begun r { state := .idle } .attach ∧ Begun r {} .attach ∧ ¬attachBad r ∧ ¬attachUnaligned r ∧
      (getTenant (control r { state := .idle }) 0).state ≠ .detached ∧ (getTenant (control r {}) 0).state = .detached) := by
  unfold Begun Executing
  repeat' first | apply And.intro | refine List.forall_mem_cons.2 ⟨?_, ?_⟩ | exact List.forall_mem_nil _
  all_goals decide +kernel

/-- A record of this kind begun over a running tenant 1 with these elements outstanding. -/
def controlRunning (r : Record) (u : TransferUnit) : State :=
  { running (putPlan 0 .clip) putting u with control := { current := some (ctl r) } }

/-- An ABORT drain of tenant 1 with nothing outstanding. -/
def aborting : State :=
  { onWith { state := .detaching } with
    tu := { drainingFor .abort [] none with granted := some 0 },
    control := { current := some { ctl (controlRecord 0x22 1 []) with op := .waitingTarget } } }

theorem test_meets_DetachRecord :
    (∀ n ∈ [0, 8], Begun (controlRecord 0x22 n []) {} .detach ∧ NoTenant (controlRecord 0x22 n [])) ∧
    (∀ t ∈ [({} : Tenant), { state := .idle }, { state := .halted }],
      Begun (controlRecord 0x22 1 []) t .detach ∧ byteAt (controlRecord 0x22 1 []) 8 = 1 ∧
      (getTenant (control (controlRecord 0x22 1 []) t) 0).state ≠ .running ∧
      (getTenant (control (controlRecord 0x22 1 []) t) 0).state ≠ .detaching) ∧
    (∀ out ∈ [[elem 0 .readIssued], [elem 0 .readHeld]],
      Executing (controlRunning (controlRecord 0x22 1 []) (issuingAt 1 out)) (ctl (controlRecord 0x22 1 [])) .detach ∧
      (getTenant (controlRunning (controlRecord 0x22 1 []) (issuingAt 1 out)) 0).state = .running) ∧
    (([elem 0 .readIssued].filter fun e => inFlightStage e.stage) ≠ [] ∧
      ([elem 0 .readHeld].filter fun e => inFlightStage e.stage) = []) ∧
    (serving aborting = true ∧ aborting.tu.granted = some 0 ∧ aborting.tu.phase = .draining .abort ∧
      aborting.tu.outstanding = [] ∧ (getTenant aborting 0).state = .detaching ∧
      aborting.control.current = some { ctl (controlRecord 0x22 1 []) with op := .waitingTarget }) := by
  unfold Begun Executing
  repeat' first | apply And.intro | refine List.forall_mem_cons.2 ⟨?_, ?_⟩ | exact List.forall_mem_nil _
  all_goals decide +kernel

/-- A DRAIN of tenant 1 that waits. -/
def drainWaits (st : TState) : State :=
  { onWith { state := st } with
    control := { current := some { ctl (controlRecord 0x23 1 []) with op := .waitingTarget } } }

theorem test_meets_DrainRecordAndEnd :
    (∀ n ∈ [0, 8], Begun (controlRecord 0x23 n []) {} .drain ∧ NoTenant (controlRecord 0x23 n [])) ∧
    (∀ t ∈ [({} : Tenant), { state := .halted }, { state := .paused }, { state := .idle }, reading .idle, reading .waiting],
      Begun (controlRecord 0x23 1 []) t .drain ∧ byteAt (controlRecord 0x23 1 []) 8 = 1) ∧
    (({ state := .idle } : Tenant).chan.inFlight = none ∧ (reading .idle).chan.inFlight ≠ none) ∧
    (∀ st ∈ [TState.paused, .halted, .posting],
      let s := drainWaits st;
      let c : CtlRecord := { ctl (controlRecord 0x23 1 []) with op := .waitingTarget };
      serving s = true ∧ s.control.current = some c ∧ c.op = .waitingTarget ∧ kindOf c.data = some .drain ∧
      (0 : TenantId).val + 1 = byteAt c.data 8 ∧ (getTenant s 0).state = st) := by
  unfold Begun Executing
  repeat' first | apply And.intro | refine List.forall_mem_cons.2 ⟨?_, ?_⟩ | exact List.forall_mem_nil _
  all_goals decide +kernel

/-- A RESUME of this target and mode. -/
def resumeRecord (target mode : Nat) : Record := controlRecord 0x24 target [(9, mode)]

/-- Tenant 1 HALTED for this reason, with this step and pending completion. -/
def haltedFor (h : HaltReason) (r : Option Recovery) (c : Option Completion) : Tenant :=
  { state := .halted, current := some ⟨3, .failed⟩, haltReason := some h, recovery := r, cu := { pending := c } }

theorem test_meets_ResumeRecords :
    (∀ f ∈ [(0, 0), (8, 1)], Begun (resumeRecord f.1 f.2) {} .resume ∧ NoTenant (resumeRecord f.1 f.2)) ∧
    (Begun (resumeRecord 1 2) {} .resume ∧ byteAt (resumeRecord 1 2) 8 = 1 ∧ 1 < byteAt (resumeRecord 1 2) 9) ∧
    (∀ t ∈ [({ state := .idle } : Tenant), { state := .paused }, haltedFor .invalid (some .refetchOutstanding) none,
        haltedFor .postError none (some markDone), haltedFor .timeout none (some markDone), haltedFor .timeout none none,
        haltedFor .fetchError none none,
        haltedFor .postError none (some { markDone with interim := true, status := .faultAbsent })],
      ∀ m ∈ [0, 1],
      Begun (resumeRecord 1 m) t .resume ∧ byteAt (resumeRecord 1 m) 9 = m ∧ byteAt (resumeRecord 1 m) 8 = 1) := by
  unfold Begun Executing
  repeat' first | apply And.intro | refine List.forall_mem_cons.2 ⟨?_, ?_⟩ | exact List.forall_mem_nil _
  all_goals decide +kernel

abbrev serviceRefused (r : Record) : Prop :=
  byteAt r 9 = 0 ∨ 8 < byteAt r 9 ∨ byteAt r 10 = 0 ∨ 32 < byteAt r 10 ∨ 4095 < halfAt r 12

theorem test_meets_SetServiceAndNote :
    (∀ n ∈ [0, 8], Begun (controlRecord 0x27 n []) {} .setService ∧ NoTenant (controlRecord 0x27 n [])) ∧
    (∀ f ∈ [[(10, 1)], [(9, 9), (10, 1)], [(9, 1)], [(9, 1), (10, 33)], [(9, 1), (10, 1), (12, 4096)]],
      Begun (controlRecord 0x27 1 f) {} .setService ∧ serviceRefused (controlRecord 0x27 1 f)) ∧
    (∀ t ∈ [({} : Tenant), { state := .idle }],
      Begun (controlRecord 0x27 1 [(9, 8), (10, 32), (12, 4095)]) t .setService ∧
      ¬serviceRefused (controlRecord 0x27 1 [(9, 8), (10, 32), (12, 4095)])) ∧
    Begun noteRecord {} .note := by
  unfold Begun Executing
  repeat' first | apply And.intro | refine List.forall_mem_cons.2 ⟨?_, ?_⟩ | exact List.forall_mem_nil _
  all_goals decide +kernel

/-- A QUERY of this target to this address. -/
def queryRecord (target addr : Nat) : Record := controlRecord 0x28 target [(16, addr)]

/-- A report write in flight for the current record. -/
def queryOut : State := controlIn .on { current := some (ctl (queryRecord 1 64)), query := some ⟨64, 0, 0⟩ }

theorem test_meets_QueryRecord :
    (∀ r ∈ [queryRecord 8 0, queryRecord 0 1099511627776, queryRecord 7 1099511627776, queryRecord 0 32, queryRecord 7 32,
        queryRecord 0 1099511627712, queryRecord 7 1099511627712], Begun r {} .query) ∧
    7 < byteAt (queryRecord 8 0) 8 ∧ 2 ^ 40 ≤ longAt (queryRecord 7 1099511627776) 16 ∧
    longAt (queryRecord 7 32) 16 % 64 ≠ 0 ∧
    (longAt (queryRecord 7 1099511627712) 16 < 2 ^ 40 ∧ longAt (queryRecord 7 1099511627712) 16 % 64 = 0 ∧
      (6 : TenantId).val + 1 = byteAt (queryRecord 7 1099511627712) 8 ∧ byteAt (queryRecord 0 1099511627712) 8 = 0) ∧
    (queryOut.engine ≠ .resetting ∧ queryOut.control.query = some ⟨64, 0, 0⟩ ∧
      queryOut.control.current = some (ctl (queryRecord 1 64))) := by
  unfold Begun Executing
  repeat' first | apply And.intro | refine List.forall_mem_cons.2 ⟨?_, ?_⟩ | exact List.forall_mem_nil _
  all_goals decide +kernel

end Sys2Proof.Tests
end

section
/-!
# Walks of a rectangle (R45)

A walk names the ordinal's column and row offset first and then mirrors each offset at its own edge. Both halves have
an inverse: `walkOrdinal` finds the ordinal of a pair of offsets, `edgeOffset` the offset of a coordinate. Together they
give `walk_position_iff`: an ordinal of the rectangle reaches a position exactly when it is the one so computed.
-/

namespace Sys2Proof.Machine

/-! ## Ordinals and offsets -/

theorem walkColumn_of_row {w : Walk} (h : w.order = .row) (p : Nat) : walkColumn w p = p % w.width := by
  simp [walkColumn, h]

theorem walkColumn_of_column {w : Walk} (h : w.order = .column) (p : Nat) : walkColumn w p = p / w.height := by
  simp [walkColumn, h]

theorem walkRow_of_row {w : Walk} (h : w.order = .row) (p : Nat) : walkRow w p = p / w.width := by
  simp [walkRow, h]

theorem walkRow_of_column {w : Walk} (h : w.order = .column) (p : Nat) : walkRow w p = p % w.height := by
  simp [walkRow, h]

/-- The ordinal at which the walk stands at column offset `c` and row offset `r`. -/
def walkOrdinal (w : Walk) (c r : Nat) : Nat :=
  match w.order with
  | .row => w.width * r + c
  | .column => w.height * c + r

theorem walkOrdinal_of_row {w : Walk} (h : w.order = .row) (c r : Nat) : walkOrdinal w c r = w.width * r + c := by
  simp [walkOrdinal, h]

theorem walkOrdinal_of_column {w : Walk} (h : w.order = .column) (c r : Nat) :
    walkOrdinal w c r = w.height * c + r := by
  simp [walkOrdinal, h]

theorem walkColumn_lt {w : Walk} {p : Nat} (hw : 0 < w.width) (hp : p < w.width * w.height) :
    walkColumn w p < w.width := by
  cases h : w.order with
  | row => rw [walkColumn_of_row h]; exact Nat.mod_lt _ hw
  | column => rw [walkColumn_of_column h]; exact Nat.div_lt_of_lt_mul (Nat.mul_comm _ _ ▸ hp)

theorem walkRow_lt {w : Walk} {p : Nat} (hh : 0 < w.height) (hp : p < w.width * w.height) :
    walkRow w p < w.height := by
  cases h : w.order with
  | row => rw [walkRow_of_row h]; exact Nat.div_lt_of_lt_mul hp
  | column => rw [walkRow_of_column h]; exact Nat.mod_lt _ hh

theorem walkOrdinal_walkColumn_walkRow (w : Walk) (p : Nat) : walkOrdinal w (walkColumn w p) (walkRow w p) = p := by
  cases h : w.order with
  | row => rw [walkOrdinal_of_row h, walkColumn_of_row h, walkRow_of_row h, Nat.div_add_mod]
  | column => rw [walkOrdinal_of_column h, walkColumn_of_column h, walkRow_of_column h, Nat.div_add_mod]

section
variable {w : Walk} {c r : Nat}

theorem walkColumn_walkOrdinal (hc : c < w.width) (hr : r < w.height) : walkColumn w (walkOrdinal w c r) = c := by
  cases h : w.order with
  | row => rw [walkOrdinal_of_row h, walkColumn_of_row h, Nat.mul_add_mod, Nat.mod_eq_of_lt hc]
  | column =>
    rw [walkOrdinal_of_column h, walkColumn_of_column h, Nat.mul_add_div (by omega), Nat.div_eq_of_lt hr, Nat.add_zero]

theorem walkRow_walkOrdinal (hc : c < w.width) (hr : r < w.height) : walkRow w (walkOrdinal w c r) = r := by
  cases h : w.order with
  | row =>
    rw [walkOrdinal_of_row h, walkRow_of_row h, Nat.mul_add_div (by omega), Nat.div_eq_of_lt hc, Nat.add_zero]
  | column => rw [walkOrdinal_of_column h, walkRow_of_column h, Nat.mul_add_mod, Nat.mod_eq_of_lt hr]

theorem walkOrdinal_lt (hc : c < w.width) (hr : r < w.height) : walkOrdinal w c r < w.width * w.height := by
  cases h : w.order with
  | row =>
    calc walkOrdinal w c r = w.width * r + c := walkOrdinal_of_row h c r
      _ < w.width * (r + 1) := by rw [Nat.mul_succ]; omega
      _ ≤ w.width * w.height := Nat.mul_le_mul_left _ hr
  | column =>
    calc walkOrdinal w c r = w.height * c + r := walkOrdinal_of_column h c r
      _ < w.height * (c + 1) := by rw [Nat.mul_succ]; omega
      _ ≤ w.height * w.width := Nat.mul_le_mul_left _ hc
      _ = w.width * w.height := Nat.mul_comm _ _

end

/-- The last ordinal stands at the last column and the last row, in either order. -/
theorem walkOrdinal_last {w : Walk} (hw : 0 < w.width) (hh : 0 < w.height) :
    walkOrdinal w (w.width - 1) (w.height - 1) = w.width * w.height - 1 := by
  have last (a b : Nat) (ha : 0 < a) (hb : 0 < b) : a * (b - 1) + (a - 1) = a * b - 1 := by
    have : a * (b - 1) + a = a * b := by rw [← Nat.mul_succ, Nat.succ_eq_add_one, Nat.sub_add_cancel hb]
    omega
  cases h : w.order with
  | row => rw [walkOrdinal_of_row h, last _ _ hw hh]
  | column => rw [walkOrdinal_of_column h, last _ _ hh hw, Nat.mul_comm]

theorem walkColumn_zero (w : Walk) : walkColumn w 0 = 0 := by
  cases h : w.order with
  | row => rw [walkColumn_of_row h, Nat.zero_mod]
  | column => rw [walkColumn_of_column h, Nat.zero_div]

theorem walkRow_zero (w : Walk) : walkRow w 0 = 0 := by
  cases h : w.order with
  | row => rw [walkRow_of_row h, Nat.zero_div]
  | column => rw [walkRow_of_column h, Nat.zero_mod]

theorem walkColumn_last {w : Walk} (hw : 0 < w.width) (hh : 0 < w.height) :
    walkColumn w (w.width * w.height - 1) = w.width - 1 := by
  rw [← walkOrdinal_last hw hh, walkColumn_walkOrdinal (by omega) (by omega)]

theorem walkRow_last {w : Walk} (hw : 0 < w.width) (hh : 0 < w.height) :
    walkRow w (w.width * w.height - 1) = w.height - 1 := by
  rw [← walkOrdinal_last hw hh, walkRow_walkOrdinal (by omega) (by omega)]

/-! ## Offsets and coordinates -/

/-- The coordinate at offset `k` of the `len` coordinates from `first` on, counted from the far edge when reversed. -/
def edgeCoord (rev : Bool) (first len k : Nat) : Nat :=
  if rev then first + len - 1 - k else first + k

/-- The offset at which `edgeCoord` gives the coordinate `x`. -/
def edgeOffset (rev : Bool) (first len x : Nat) : Nat :=
  if rev then first + len - 1 - x else x - first

theorem walkX_eq_edgeCoord (w : Walk) (p : Nat) : walkX w p = edgeCoord w.xrev w.x0 w.width (walkColumn w p) := rfl

theorem walkY_eq_edgeCoord (w : Walk) (p : Nat) : walkY w p = edgeCoord w.yrev w.y0 w.height (walkRow w p) := rfl

section
variable {first len k x : Nat}

theorem edgeOffset_lt (rev : Bool) (hfirst : first ≤ x) (hlast : x < first + len) :
    edgeOffset rev first len x < len := by
  cases rev with
  | false => simp only [edgeOffset, Bool.false_eq_true, if_false]; omega
  | true => simp only [edgeOffset, if_true]; omega

theorem edgeCoord_eq_iff (rev : Bool) (hk : k < len) (hfirst : first ≤ x) (hlast : x < first + len) :
    edgeCoord rev first len k = x ↔ k = edgeOffset rev first len x := by
  cases rev with
  | false => simp only [edgeCoord, edgeOffset, Bool.false_eq_true, if_false]; omega
  | true => simp only [edgeCoord, edgeOffset, if_true]; omega

end

theorem edgeCoord_zero (rev : Bool) (first len : Nat) :
    edgeCoord rev first len 0 = if rev then first + len - 1 else first := rfl

theorem edgeCoord_last (rev : Bool) (first : Nat) {len : Nat} (hlen : 0 < len) :
    edgeCoord rev first len (len - 1) = if rev then first else first + len - 1 := by
  cases rev with
  | false => simp only [edgeCoord, Bool.false_eq_true, if_false]; omega
  | true => simp only [edgeCoord, if_true]; omega

/-! ## Ordinals and positions -/

/-- The ordinal at which the walk reaches the position at column `x` and row `y`. -/
def positionOrdinal (w : Walk) (x y : Nat) : Nat :=
  walkOrdinal w (edgeOffset w.xrev w.x0 w.width x) (edgeOffset w.yrev w.y0 w.height y)

section
variable {w : Walk} {x y p : Nat}

theorem positionOrdinal_lt (hx0 : w.x0 ≤ x) (hx1 : x < w.x0 + w.width) (hy0 : w.y0 ≤ y)
    (hy1 : y < w.y0 + w.height) : positionOrdinal w x y < w.width * w.height :=
  walkOrdinal_lt (edgeOffset_lt _ hx0 hx1) (edgeOffset_lt _ hy0 hy1)

theorem walk_position_iff (hx0 : w.x0 ≤ x) (hx1 : x < w.x0 + w.width) (hy0 : w.y0 ≤ y) (hy1 : y < w.y0 + w.height)
    (hp : p < w.width * w.height) : (walkX w p = x ∧ walkY w p = y) ↔ p = positionOrdinal w x y := by
  have hcol : walkX w p = x ↔ walkColumn w p = edgeOffset w.xrev w.x0 w.width x :=
    edgeCoord_eq_iff _ (walkColumn_lt (by omega) hp) hx0 hx1
  have hrow : walkY w p = y ↔ walkRow w p = edgeOffset w.yrev w.y0 w.height y :=
    edgeCoord_eq_iff _ (walkRow_lt (by omega) hp) hy0 hy1
  rw [hcol, hrow]
  constructor
  · rintro ⟨hc, hr⟩
    rw [positionOrdinal, ← hc, ← hr, walkOrdinal_walkColumn_walkRow]
  · rintro rfl
    have hc := edgeOffset_lt w.xrev hx0 hx1
    have hr := edgeOffset_lt w.yrev hy0 hy1
    exact ⟨walkColumn_walkOrdinal hc hr, walkRow_walkOrdinal hc hr⟩

end

/-! ## The corners -/

theorem walkX_zero (w : Walk) : walkX w 0 = if w.xrev then w.x0 + w.width - 1 else w.x0 := by
  rw [walkX_eq_edgeCoord, walkColumn_zero, edgeCoord_zero]

theorem walkY_zero (w : Walk) : walkY w 0 = if w.yrev then w.y0 + w.height - 1 else w.y0 := by
  rw [walkY_eq_edgeCoord, walkRow_zero, edgeCoord_zero]

theorem walkX_last {w : Walk} (hw : 0 < w.width) (hh : 0 < w.height) :
    walkX w (w.width * w.height - 1) = if w.xrev then w.x0 else w.x0 + w.width - 1 := by
  rw [walkX_eq_edgeCoord, walkColumn_last hw hh, edgeCoord_last _ _ hw]

theorem walkY_last {w : Walk} (hw : 0 < w.width) (hh : 0 < w.height) :
    walkY w (w.width * w.height - 1) = if w.yrev then w.y0 else w.y0 + w.height - 1 := by
  rw [walkY_eq_edgeCoord, walkRow_last hw hh, edgeCoord_last _ _ hh]

/-- Settles O12: the formulas and the window's walk are the model's definitions, the corners are the offsets 0 and the
last ones, and `walk_position_iff` names the one ordinal of each position. -/
theorem walkVisitsEachPositionOnce : Obligations.WalkVisitsEachPositionOnce := by
  unfold Obligations.WalkVisitsEachPositionOnce
  refine ⟨fun w p _ _ _ => ⟨rfl, rfl⟩, fun w hw hh => ⟨?_, walkX_zero w, walkY_zero w, walkX_last hw hh,
    walkY_last hw hh⟩, fun f w => ⟨rfl, rfl, rfl, rfl, rfl, rfl, rfl, rfl⟩⟩
  intro x y hx0 hx1 hy0 hy1
  have hlt := positionOrdinal_lt hx0 hx1 hy0 hy1
  exact ⟨positionOrdinal w x y, ⟨hlt, (walk_position_iff hx0 hx1 hy0 hy1 hlt).2 rfl⟩,
    fun q hq hqx hqy => (walk_position_iff hx0 hx1 hy0 hy1 hq).1 ⟨hqx, hqy⟩⟩

end Sys2Proof.Machine
end

section
/-!
# Translation through an entry (R101, R102, R115)

A logical address is a page and an offset within it. `translateAccess` consults the entry of that page alone, so two
pages whose entries hold one PPN give one physical address and still answer an access by their own permissions.
-/

namespace Sys2Proof.Machine

/-- The physical address at offset `o` of the page that `ppn` names (R101). -/
def pagePhys (ppn : BitVec 26) (o : Nat) : Phys := BitVec.ofNat 40 (ppn.toNat * Config.pageBytes + o)

section
variable {seg : Segment} {p o : Nat}

/-- A physical page of 26 bits and an offset within it fill the 40 bits of a physical address and never wrap. -/
theorem pagePhys_toNat (ppn : BitVec 26) (ho : o < Config.pageBytes) :
    (pagePhys ppn o).toNat = ppn.toNat * Config.pageBytes + o := by
  have hppn : ppn.toNat < 2 ^ 26 := ppn.isLt
  have hfit : ppn.toNat * Config.pageBytes + o < 2 ^ 40 := by
    unfold Config.pageBytes at *
    omega
  rw [pagePhys, BitVec.toNat_ofNat, Nat.mod_eq_of_lt hfit]

theorem pageAddress_div (ho : o < Config.pageBytes) : (p * Config.pageBytes + o) / Config.pageBytes = p := by
  unfold Config.pageBytes at *
  omega

theorem pageAddress_mod (ho : o < Config.pageBytes) : (p * Config.pageBytes + o) % Config.pageBytes = o := by
  unfold Config.pageBytes at *
  omega

theorem translateAccess_read_of_permitted (ho : o < Config.pageBytes) (hv : (segGet seg p).v = true)
    (hr : (segGet seg p).r = true) :
    translateAccess seg (p * Config.pageBytes + o) .read = .phys (pagePhys (segGet seg p).ppn o) := by
  simp [translateAccess, pageAddress_div ho, pageAddress_mod ho, hv, hr, pagePhys]

theorem translateAccess_write_of_not_permitted (ho : o < Config.pageBytes) (hv : (segGet seg p).v = true)
    (hw : (segGet seg p).w = false) :
    translateAccess seg (p * Config.pageBytes + o) .write = .fault .faultNoWrite := by
  simp [translateAccess, pageAddress_div ho, hv, hw]

end

/-- Settles O14: the byte is the one at the offset in the common physical page; the read is answered by the entry of the
first page and the write by the entry of the second. -/
theorem aliasedEntriesAreCheckedApart : Obligations.AliasedEntriesAreCheckedApart := by
  unfold Obligations.AliasedEntriesAreCheckedApart
  intro seg p q o ho hvp hvq hppn hr hw
  have hread := translateAccess_read_of_permitted ho hvp hr
  rw [hppn] at hread
  exact ⟨pagePhys (segGet seg q).ppn o, pagePhys_toNat _ ho, hread, translateAccess_write_of_not_permitted ho hvq hw⟩

end Sys2Proof.Machine
end

section
set_option Elab.async false
/-!
# One tenant of a sound state

`Sound` says part of what it says of each tenant by itself. `TenantOk` collects that part, and the lemmas here say which
context records have it: first by the state the tenant is in, then for every operation on one context record.
-/

namespace Sys2Proof.Machine

/-! ## The rows of the tenant state table, by name -/

/-- The rows of `TenantTable` (section 1.3). -/
structure TableRows (t : Tenant) : Prop where
  current : t.current.isSome = holdsRecord t.state
  haltReason : t.haltReason.isSome = (t.state == .halted)
  pendingStates : t.cu.pending.isSome = true → t.state = .posting ∨ t.state = .halted
  postingPends : t.state = .posting → t.cu.pending.isSome = true
  recoveryStates : t.recovery.isSome = true → t.state = .halted
  progress : ProgressRow t
  wait : WaitRow t
  refetchStep : t.chan.refetchWaiting = true ∨ liveRefetch t = true → t.recovery = some .refetchOutstanding
  oneRefetch : t.chan.refetchWaiting = true → liveRefetch t = false
  refetchHalt : t.recovery = some .refetchOutstanding →
    t.cu.pending = none ∧ (t.haltReason = some .fetchError ∨ t.haltReason = some .invalid)
  interimHalts : ∀ c, t.cu.pending = some c → c.interim = true → (haltReasonOf c.status).isSome = true

theorem tenantTable_iff {t : Tenant} : TenantTable t ↔ TableRows t :=
  ⟨fun ⟨h1, h2, h3, h4, h5, h6, h7, h8, h9, h10, h11⟩ => ⟨h1, h2, h3, h4, h5, h6, h7, h8, h9, h10, h11⟩,
   fun ⟨h1, h2, h3, h4, h5, h6, h7, h8, h9, h10, h11⟩ => ⟨h1, h2, h3, h4, h5, h6, h7, h8, h9, h10, h11⟩⟩

section
variable {t : Tenant}

theorem TableRows.haltReason_eq_none (h : TableRows t) (hs : t.state ≠ .halted) : t.haltReason = none := by
  have := h.haltReason
  cases hr : t.haltReason with
  | none => rfl
  | some r => rw [hr] at this; exact absurd (by simpa using this.symm) hs

theorem TableRows.recovery_eq_none (h : TableRows t) (hs : t.state ≠ .halted) : t.recovery = none := by
  cases hr : t.recovery with
  | none => rfl
  | some r => exact absurd (h.recoveryStates (by simp [hr])) hs

theorem TableRows.pending_eq_none (h : TableRows t) (hp : t.state ≠ .posting) (hs : t.state ≠ .halted) :
    t.cu.pending = none := by
  cases hr : t.cu.pending with
  | none => rfl
  | some r => exact absurd (h.pendingStates (by simp [hr])) (by simp [hp, hs])

theorem TableRows.progress_eq_none (h : TableRows t) (hs : mayHoldProgress t.state = false) : t.progress = none := by
  cases hr : t.progress with
  | none => rfl
  | some r => have := (h.progress (by simp [hr])).1; simp [hs] at this

theorem TableRows.refetchWaiting_eq_false (h : TableRows t) (hr : t.recovery ≠ some .refetchOutstanding) :
    t.chan.refetchWaiting = false := by
  cases hw : t.chan.refetchWaiting with
  | false => rfl
  | true => exact absurd (h.refetchStep (.inl hw)) hr

theorem TableRows.liveRefetch_eq_false (h : TableRows t) (hr : t.recovery ≠ some .refetchOutstanding) :
    liveRefetch t = false := by
  cases hw : liveRefetch t with
  | false => rfl
  | true => exact absurd (h.refetchStep (.inr hw)) hr

theorem TableRows.wait_eq_stopped (h : TableRows t) (hs : t.state ≠ .waiting) : t.wait = .stopped := by
  by_contra hw
  exact hs (h.wait.1.1 hw)

theorem TableRows.waitTimer_eq_none (h : TableRows t) (hs : t.state ≠ .waiting) : t.waitTimer = none := by
  obtain ⟨_, _, htimer, _, _⟩ := h.wait
  cases hw : t.waitTimer with
  | none => rfl
  | some n => exact absurd (h.wait_eq_stopped hs) (htimer (by simp [hw]))

theorem TableRows.holdoffTimer_ne (h : TableRows t) : t.holdoffTimer ≠ some 0 := h.wait.2.2.2.2

/-- After a halt that is no stop at an element no progress record is kept. -/
theorem TableRows.progress_eq_none_of_haltReason (h : TableRows t) {r : HaltReason} (hr : t.haltReason = some r)
    (hf : isFaultHalt r = false) (hp : r ≠ .postError) : t.progress = none := by
  cases hg : t.progress with
  | none => rfl
  | some g => simpa [hr, hf, hp] using (h.progress (by simp [hg])).2.1

end

/-! ## What else a sound state says of one tenant -/

/-- The rings, the queue, the surfaces, the window and the map of an attached tenant. -/
def BodyOk (t : Tenant) : Prop :=
  (t.sqCode ≤ 6 ∧ t.cqCode ≤ 6 ∧ t.sqBase.toNat % 64 = 0 ∧ t.cqBase.toNat % 32 = 0 ∧
    (t.producer - t.chan.fetchIndex).toNat ≤ ringSlots t.sqCode ∧ CompletionRingOk t.cu t.cqCode) ∧
  t.chan.queue.length + (normalInFlight t).toNat ≤ 4 ∧
  WindowRow t ∧ segmentWf t.segment = true ∧ ∀ op, t.pendingMap = some op → mapOpFits op

/-- All that `Sound` says of one tenant by itself. -/
structure TenantOk (t : Tenant) : Prop where
  table : TenantTable t
  detachedRow : t.state = .detached → t = detachedValues t
  rings : TenantRings t
  queue : t.chan.queue.length + (normalInFlight t).toNat ≤ 4
  windows : WindowRow t
  stopped : StoppedRow t
  segment : segmentWf t.segment = true
  mapFits : ∀ op, t.pendingMap = some op → mapOpFits op

theorem attached_iff {t : Tenant} : attached t = true ↔ t.state ≠ .detached ∧ t.state ≠ .detaching := by
  simp [attached]

section
variable {t : Tenant}

theorem TenantOk.rows (h : TenantOk t) : TableRows t := tenantTable_iff.1 h.table

theorem TenantOk.body (h : TenantOk t) (ha : attached t = true) : BodyOk t :=
  ⟨h.rings ha, h.queue, h.windows, h.segment, h.mapFits⟩

/-- A tenant that is not DETACHED and has the body of an attached one needs only its table and its stopped record. -/
theorem TenantOk.of_body (hb : BodyOk t) (ht : TableRows t) (hd : t.state ≠ .detached) (hs : StoppedRow t) :
    TenantOk t :=
  let ⟨hr, hq, hw, hg, hm⟩ := hb
  ⟨tenantTable_iff.2 ht, fun h => absurd h hd, fun _ => hr, hq, hw, hs, hg, hm⟩

/-- No stopped record is kept without a progress record. -/
theorem StoppedRow.of_progress_eq_none (h : t.progress = none) : StoppedRow t := fun g hg => by simp [h] at hg

end

/-! ## A tenant with a current record, by the state it enters -/

/-- A current record, with nothing of a recovery step or of a WAIT beside it: what a tenant holds when its record is
admitted, refused, ended or stopped. -/
def HasRecord (t : Tenant) : Prop :=
  t.current.isSome = true ∧ t.recovery = none ∧ t.chan.refetchWaiting = false ∧ liveRefetch t = false ∧
  t.wait = .stopped ∧ t.waitTimer = none ∧ t.holdoffTimer ≠ some 0

section
variable {t : Tenant}

theorem TableRows.hasRecord (h : TableRows t) (hc : holdsRecord t.state = true) (hw : t.state ≠ .waiting)
    (hr : t.recovery = none) : HasRecord t :=
  ⟨by rw [h.current, hc], hr, h.refetchWaiting_eq_false (by simp [hr]), h.liveRefetch_eq_false (by simp [hr]),
   h.wait_eq_stopped hw, h.waitTimer_eq_none hw, h.holdoffTimer_ne⟩

/-- The table of a tenant that has its record and does not wait: what is left is its halt reason, its pending completion
and its progress record. -/
theorem HasRecord.rows (h : HasRecord t) (hs : holdsRecord t.state = true) (hw : t.state ≠ .waiting)
    (hh : t.haltReason.isSome = (t.state == .halted))
    (hp : t.cu.pending.isSome = true → t.state = .posting ∨ t.state = .halted)
    (hpost : t.state = .posting → t.cu.pending.isSome = true) (hg : ProgressRow t)
    (ht : t.haltReason = some .timeout ∨ t.cu.pending.any (fun c => c.interim && c.status == .timeout) = true →
      currentIsRecord t = true)
    (hi : ∀ c, t.cu.pending = some c → c.interim = true → (haltReasonOf c.status).isSome = true) : TableRows t := by
  obtain ⟨hcur, hrec, hrw, hlr, hwait, htimer, hhold⟩ := h
  refine ⟨by rw [hcur, hs], hh, hp, hpost, by simp [hrec], hg, ⟨by simp [hwait, hw], ?_, by simp [htimer],
    by simp [htimer], hhold⟩, by simp [hrw, hlr], by simp [hrw], by simp [hrec], hi⟩
  rintro (hs' | ht')
  · exact absurd hs' hw
  · exact ht ht'

/-- POSTING with a terminal completion. -/
theorem HasRecord.tenantOk_enterPosting {c : Completion} (h : HasRecord t) (hb : BodyOk t) (hh : t.haltReason = none)
    (hc : c.interim = false) : TenantOk (enterPosting t c) := by
  have hr : HasRecord (enterPosting t c) := h
  have hh' : (enterPosting t c).haltReason = none := hh
  refine .of_body hb (hr.rows rfl ?_ ?_ ?_ ?_ ?_ ?_ ?_) ?_ (.of_progress_eq_none rfl)
  case refine_5 => intro hg; cases hg
  all_goals simp_all

/-- HALTED with an interim completion whose status names the halt reason; only a stop at an element keeps a progress
record. -/
theorem HasRecord.tenantOk_enterHalted {c : Completion} {r : HaltReason} (h : HasRecord t) (hb : BodyOk t)
    (hc : c.interim = true) (hr : haltReasonOf c.status = some r) (hg : t.progress = none)
    (ht : r = .timeout → currentIsRecord t = true) : TenantOk (enterHalted t r c) := by
  have hrec : HasRecord (enterHalted t r c) := h
  have hp : (enterHalted t r c).progress = none := hg
  have hto : c.status = .timeout → r = .timeout := by intro hs; rw [hs] at hr; simpa [haltReasonOf] using hr.symm
  have hcur : currentIsRecord (enterHalted t r c) = currentIsRecord t := rfl
  refine .of_body hb (hrec.rows rfl ?_ ?_ ?_ ?_ ?_ ?_ ?_) ?_ (.of_progress_eq_none hg)
  case refine_5 => intro hg'; rw [hp] at hg'; cases hg'
  case refine_6 => rintro (ht' | hp'); exacts [ht (by simpa using ht'), ht (hto (by simpa [hc] using hp'))]
  all_goals simp_all

/-- READY for a first grant. -/
theorem HasRecord.tenantOk_ready (h : HasRecord t) (hb : BodyOk t) (hh : t.haltReason = none)
    (hp : t.cu.pending = none) : TenantOk { t with state := .ready, progress := none } := by
  have hr : HasRecord { t with state := .ready, progress := none } := h
  refine .of_body hb (hr.rows rfl ?_ ?_ ?_ ?_ ?_ ?_ ?_) ?_ (.of_progress_eq_none rfl)
  case refine_5 => intro hg; cases hg
  all_goals simp_all

/-- WAITING with a WAIT that counts. -/
theorem HasRecord.tenantOk_counting {l : Line} {n m : Nat} {b : Bool} {timer : Option Nat} (h : HasRecord t)
    (hb : BodyOk t) (hh : t.haltReason = none) (hp : t.cu.pending = none) (hg : t.progress = none)
    (hc : currentIsRecord t = true) (htimer : timer ≠ some 0) :
    TenantOk { t with state := .waiting, tally := m, wait := .counting l n b, waitTimer := timer } := by
  obtain ⟨hcur, hrec, hrw, hlr, _, _, hhold⟩ := h
  refine .of_body hb ⟨hcur, by simp [hh], by simp [hp], by simp, by simp [hrec], by simp [ProgressRow, hg],
    ⟨by simp, fun _ => hc, by simp, htimer, hhold⟩, ?_, ?_, by simp [hrec], by simp [hp]⟩ (by simp)
    (.of_progress_eq_none hg)
  · rintro (hw | hl)
    · exact absurd (hrw.symm.trans hw) (by simp)
    · exact absurd (hlr.symm.trans hl) (by simp)
  · intro _; exact hlr

end

/-! ## A tenant with no current record -/

/-- Nothing of a record, a halt or a WAIT: what a tenant holds in IDLE and PAUSED, and as it attaches. -/
def AtRest (t : Tenant) : Prop :=
  t.current = none ∧ t.haltReason = none ∧ t.recovery = none ∧ t.cu.pending = none ∧ t.progress = none ∧
  t.chan.refetchWaiting = false ∧ liveRefetch t = false ∧ t.wait = .stopped ∧ t.waitTimer = none ∧
  t.holdoffTimer ≠ some 0

section
variable {t : Tenant}

theorem TableRows.atRest (h : TableRows t) (hs : holdsRecord t.state = false) : AtRest t := by
  have hposting : t.state ≠ .posting := by rintro he; simp [he, holdsRecord] at hs
  have hhalted : t.state ≠ .halted := by rintro he; simp [he, holdsRecord] at hs
  have hwaiting : t.state ≠ .waiting := by rintro he; simp [he, holdsRecord] at hs
  have hprogress : mayHoldProgress t.state = false := by cases he : t.state <;> simp_all [holdsRecord, mayHoldProgress]
  have hrec := h.recovery_eq_none hhalted
  exact ⟨by simpa [hs] using h.current, h.haltReason_eq_none hhalted, hrec,
    h.pending_eq_none hposting hhalted, h.progress_eq_none hprogress, h.refetchWaiting_eq_false (by simp [hrec]),
    h.liveRefetch_eq_false (by simp [hrec]), h.wait_eq_stopped hwaiting, h.waitTimer_eq_none hwaiting,
    h.holdoffTimer_ne⟩

theorem AtRest.rows (h : AtRest t) (hs : holdsRecord t.state = false) : TableRows t := by
  obtain ⟨h1, h2, h3, h4, h5, h6, h7, h8, h9, h10⟩ := h
  have hposting : t.state ≠ .posting := by rintro he; simp [he, holdsRecord] at hs
  have hhalted : t.state ≠ .halted := by rintro he; simp [he, holdsRecord] at hs
  have hwaiting : t.state ≠ .waiting := by rintro he; simp [he, holdsRecord] at hs
  exact ⟨by simp [h1, hs], by simp [h2, hhalted], by simp [h4], by simp [hposting], by simp [h3],
    by simp [ProgressRow, h5], ⟨by simp [h8, hwaiting], by simp [hwaiting, h2, h4], by simp [h9], by simp [h9], h10⟩,
    by simp [h6, h7], by simp [h6], by simp [h3], by simp [h4]⟩

/-- IDLE or PAUSED. -/
theorem AtRest.tenantOk (h : AtRest t) (hb : BodyOk t) (hs : holdsRecord t.state = false) (hd : t.state ≠ .detached) :
    TenantOk t := .of_body hb (h.rows hs) hd (.of_progress_eq_none h.2.2.2.2.1)

end

/-! ## Taking, refusing and waiting -/

section
variable {t : Tenant}

/-- A refused record (R59). -/
theorem HasRecord.tenantOk_refuseRecord (h : HasRecord t) (hb : BodyOk t) (hh : t.haltReason = none)
    (hg : t.progress = none) (k : TenantId) (reason : Reason) : TenantOk (refuseRecord k t reason) := by
  rcases refuseRecord_cases k t reason with ⟨_, he⟩ | ⟨_, he⟩ <;> rw [he]
  · exact h.tenantOk_enterPosting hb hh rfl
  · exact h.tenantOk_enterHalted hb rfl rfl hg (by simp)

/-- A WAIT that is begun, or refused (R136). -/
theorem HasRecord.tenantOk_startWait (h : HasRecord t) (hb : BodyOk t) (hh : t.haltReason = none)
    (hp : t.cu.pending = none) (hg : t.progress = none) (hc : currentIsRecord t = true) (k : TenantId) (r : Record) :
    TenantOk (startWait k { t with state := .waiting } r) := by
  rcases startWait_cases k { t with state := .waiting } r with he | ⟨l, _, _, _, he⟩ <;> rw [he]
  · exact HasRecord.tenantOk_refuseRecord (t := { t with state := .waiting }) h hb hh hg k _
  · exact h.tenantOk_counting hb hh hp hg hc (by split <;> simp_all)

/-! ### What `admitCurrent` does with each record (R5 to R7) -/

section
variable {k : TenantId} {q : Index} {r : Record}

theorem admitCurrent_of_failed (hc : t.current = some ⟨q, .failed⟩) : admitCurrent k t = haltFetchError k t := by
  unfold admitCurrent
  split <;> simp_all

theorem admitCurrent_of_unknown (hc : t.current = some ⟨q, .record r⟩) (hk : kindOf r = none) :
    admitCurrent k t = refuseRecord k t .unknownKind := by
  unfold admitCurrent
  split <;> simp_all

theorem admitCurrent_of_wait (hc : t.current = some ⟨q, .record r⟩) (hk : kindOf r = some .wait) :
    admitCurrent k t = startWait k { t with state := .waiting } r := by
  unfold admitCurrent
  split <;> simp_all

theorem admitCurrent_of_control {kd : Kind} (hc : t.current = some ⟨q, .record r⟩) (hk : kindOf r = some kd)
    (hkd : isTenantKind kd = false) : admitCurrent k t = refuseRecord k t .controlOnly := by
  unfold admitCurrent
  split
  · simp_all
  · simp_all
  · obtain ⟨rfl, rfl⟩ : q = _ ∧ r = _ := by simpa [hc] using ‹t.current = some ⟨_, .record _⟩›
    cases kd <;> simp_all [isTenantKind]

theorem admitCurrent_of_tenant {kd : Kind} (hc : t.current = some ⟨q, .record r⟩) (hk : kindOf r = some kd)
    (hkd : isTenantKind kd = true) (hw : kd ≠ .wait) :
    admitCurrent k t = { t with state := .ready, progress := none } := by
  unfold admitCurrent
  split
  · simp_all
  · simp_all
  · obtain ⟨rfl, rfl⟩ : q = _ ∧ r = _ := by simpa [hc] using ‹t.current = some ⟨_, .record _⟩›
    cases kd <;> simp_all [isTenantKind]

end

/-- A record just taken as the current one (R5 to R7). -/
theorem HasRecord.tenantOk_admitCurrent (h : HasRecord t) (hb : BodyOk t) (hh : t.haltReason = none)
    (hp : t.cu.pending = none) (hg : t.progress = none) (k : TenantId) : TenantOk (admitCurrent k t) := by
  rcases hc : t.current with _ | ⟨q, r | _⟩
  · exact absurd h.1 (by simp [hc])
  · rcases hk : kindOf r with _ | kd
    · rw [admitCurrent_of_unknown hc hk]
      exact h.tenantOk_refuseRecord hb hh hg k _
    · by_cases hw : kd = .wait
      · subst hw
        rw [admitCurrent_of_wait hc hk]
        exact h.tenantOk_startWait hb hh hp hg (by simp [currentIsRecord, hc]) k r
      · cases hkd : isTenantKind kd with
        | true => rw [admitCurrent_of_tenant hc hk hkd hw]; exact h.tenantOk_ready hb hh hp
        | false => rw [admitCurrent_of_control hc hk hkd]; exact h.tenantOk_refuseRecord hb hh hg k _
  · rw [admitCurrent_of_failed hc]
    exact h.tenantOk_enterHalted hb rfl rfl hg (by simp)

end
end Sys2Proof.Machine
end

section
set_option Elab.async false
/-!
# The operations on one context record keep what is sound of it

`Quiet t t'` says that an operation took the tenant from `t` to a sound `t'` and touched nothing that a run rests on. Each
lemma here says it of one operation of the model.
-/

namespace Sys2Proof.Machine

/-! ## Operations that leave a run alone -/

/-- The transfer unit holds the tenant's record (section 5.1). -/
def Runs (t : Tenant) : Prop := t.state = .running ∨ t.state = .detaching

/-- Neither begins nor ends a run, and what a run was planned from stays. -/
structure KeepsRun (t t' : Tenant) : Prop where
  state : Runs t ∨ Runs t' → t'.state = t.state
  parts : Runs t → t'.current = t.current ∧ t'.surfaces = t.surfaces ∧ t'.window = t.window

/-- A sound context record that an operation on `t` leaves, no run touched. -/
structure Quiet (t t' : Tenant) : Prop where
  ok : TenantOk t'
  run : KeepsRun t t'

section
variable {t t' : Tenant}

theorem KeepsRun.refl (t : Tenant) : KeepsRun t t := ⟨fun _ => rfl, fun _ => ⟨rfl, rfl, rfl⟩⟩

theorem KeepsRun.of_not_runs (h : ¬Runs t) (h' : ¬Runs t') : KeepsRun t t' :=
  ⟨fun hr => (hr.elim h h').elim, fun hr => (h hr).elim⟩

theorem KeepsRun.trans {t'' : Tenant} (h : KeepsRun t t') (h' : KeepsRun t' t'') : KeepsRun t t'' := by
  refine ⟨fun hr => ?_, fun hr => ?_⟩
  · rcases hr with hr | hr
    · have hs := h.state (.inl hr)
      exact (h'.state (.inl (by rw [Runs, hs]; exact hr))).trans hs
    · have hs := h'.state (.inr hr)
      exact hs.trans (h.state (.inr (by rw [Runs, ← hs]; exact hr)))
  · obtain ⟨h1, h2, h3⟩ := h.parts hr
    obtain ⟨g1, g2, g3⟩ := h'.parts (by rw [Runs, h.state (.inl hr)]; exact hr)
    exact ⟨g1.trans h1, g2.trans h2, g3.trans h3⟩

theorem Quiet.trans {t'' : Tenant} (h : Quiet t t') (h' : Quiet t' t'') : Quiet t t'' := ⟨h'.ok, h.run.trans h'.run⟩

theorem TenantOk.quiet_refl (h : TenantOk t) : Quiet t t := ⟨h, .refl t⟩

/-- An operation that writes none of the fields a run rests on. -/
theorem TenantOk.quiet (h : TenantOk t') (hs : t'.state = t.state) (hc : t'.current = t.current)
    (hf : t'.surfaces = t.surfaces) (hw : t'.window = t.window) : Quiet t t' :=
  ⟨h, fun _ => hs, fun _ => ⟨hc, hf, hw⟩⟩

theorem not_runs_of_state {st : TState} (h : t.state = st) (h1 : st ≠ .running := by decide)
    (h2 : st ≠ .detaching := by decide) : ¬Runs t := by
  rintro (hr | hr) <;> simp_all

theorem attached_of_state {st : TState} (h : t.state = st) (h1 : st ≠ .detached := by decide)
    (h2 : st ≠ .detaching := by decide) : attached t = true := by rw [attached_iff]; simp_all

end

/-! ## Registers: the index words and the alert word -/

section
variable {t : Tenant}

/-- A taken producer index write (R23). -/
theorem TenantOk.quiet_producer {v : Index} (h : TenantOk t) (ha : attached t = true)
    (hv : (v - t.chan.fetchIndex).toNat ≤ ringSlots t.sqCode) : Quiet t { t with producer := v } := by
  obtain ⟨⟨hr1, hr2, hr3, hr4, _, hr6⟩, hq, hw, hs, hm⟩ := h.body ha
  exact TenantOk.quiet ⟨h.table, fun hd => absurd hd (attached_iff.1 ha).1, fun _ => ⟨hr1, hr2, hr3, hr4, hv, hr6⟩,
    h.queue, h.windows, h.stopped, h.segment, h.mapFits⟩ rfl rfl rfl rfl

/-- An alert recorded or cleared. -/
theorem TenantOk.quiet_alert (h : TenantOk t) (a : Option Alert) : Quiet t { t with cu := { t.cu with alert := a } } :=
  TenantOk.quiet ⟨h.table,
    fun hd => congrArg (fun t : Tenant => { t with cu := { t.cu with alert := a } }) (h.detachedRow hd),
    h.rings, h.queue, h.windows, h.stopped, h.segment, h.mapFits⟩ rfl rfl rfl rfl

/-- Consuming up to an admitted index leaves no more than there was. -/
theorem unconsumed_consume_le {cu : CompletionUnit} {v : Index} (h : consumerAdmitted cu v = true) :
    unconsumed (consume cu v) ≤ unconsumed cu := by
  simp only [consumerAdmitted, decide_eq_true_eq] at h
  simp only [unconsumed, consume]
  bv_omega

/-- A completion ring that holds no more, with no new post, stays within its ring. -/
theorem CompletionRingOk.mono {cu cu' : CompletionUnit} {code : Nat} (h : CompletionRingOk cu code)
    (hu : unconsumed cu' ≤ unconsumed cu) (hp : livePost cu' = true → livePost cu = true) :
    CompletionRingOk cu' code := by
  have : (livePost cu').toNat ≤ (livePost cu).toNat := by
    cases hl : livePost cu' with
    | false => simp
    | true => simp [hp hl]
  unfold CompletionRingOk at *
  omega

/-- A completion unit and holdoff that change in the indices and the post alone. -/
theorem TenantOk.quiet_unit {cu : CompletionUnit} {timer : Option Nat} {expired : Bool} (h : TenantOk t)
    (ha : attached t = true) (hp : cu.pending = t.cu.pending) (hc : CompletionRingOk cu t.cqCode)
    (ht : timer ≠ some 0) : Quiet t { t with cu := cu, holdoffTimer := timer, holdoffExpired := expired } := by
  obtain ⟨⟨hr1, hr2, hr3, hr4, hr5, _⟩, hq, hw, hs, hm⟩ := h.body ha
  obtain ⟨h1, h2, h3, h4, h5, h6, ⟨w1, w2, w3, w4, _⟩, h8, h9, h10, h11⟩ := h.table
  rw [← hp] at h3 h4 h10 h11 w2
  have h6' : ProgressRow { t with cu := cu, holdoffTimer := timer, holdoffExpired := expired } := by
    unfold ProgressRow at h6 ⊢
    rw [← hp] at h6
    exact h6
  exact TenantOk.quiet ⟨⟨h1, h2, h3, h4, h5, h6', ⟨w1, w2, w3, w4, ht⟩, h8, h9, h10, h11⟩,
    fun hd => absurd hd (attached_iff.1 ha).1,
    fun _ => ⟨hr1, hr2, hr3, hr4, hr5, hc⟩, h.queue, h.windows, h.stopped, h.segment, h.mapFits⟩ rfl rfl rfl rfl

/-- POST_ISSUE (R144): the post takes a slot that is free. -/
theorem TenantOk.quiet_tryPost (h : TenantOk t) : Quiet t (tryPostTenant t) := by
  rcases tryPostTenant_cases t with he | ⟨c, _, hpost, hroom, ha, _, _, he⟩ <;> rw [he]
  · exact h.quiet_refl
  · refine h.quiet_unit ha rfl ?_ h.rows.holdoffTimer_ne
    unfold CompletionRingOk
    have hu : unconsumed (issuePost t.cu t.cqBase t.cqCode c) = unconsumed t.cu := rfl
    have hl : (livePost (issuePost t.cu t.cqBase t.cqCode c)).toNat = 1 := rfl
    omega

/-- A taken consumer index write, with the post it lets go (R150, R146). -/
theorem TenantOk.quiet_consume {v : Index} {timer : Option Nat} {expired : Bool} (h : TenantOk t)
    (ha : attached t = true) (hv : consumerAdmitted t.cu v = true) (ht : timer ≠ some 0) :
    Quiet t { t with cu := consume t.cu v, holdoffTimer := timer, holdoffExpired := expired } :=
  h.quiet_unit ha rfl ((h.body ha).1.2.2.2.2.2.mono (unconsumed_consume_le hv) fun hl => hl) ht

/-- The place of a post is freed, with an answer dropped or a marked post answered. -/
theorem TenantOk.quiet_dropPost (h : TenantOk t) : Quiet t { t with cu := { t.cu with post := none } } :=
  TenantOk.quiet ⟨h.table,
    fun hd => congrArg (fun t : Tenant => { t with cu := { t.cu with post := none } }) (h.detachedRow hd),
    fun ha => by
      obtain ⟨⟨hr1, hr2, hr3, hr4, hr5, hr6⟩, _⟩ := h.body ha
      exact ⟨hr1, hr2, hr3, hr4, hr5, hr6.mono le_rfl (by simp [livePost])⟩,
    h.queue, h.windows, h.stopped, h.segment, h.mapFits⟩ rfl rfl rfl rfl

/-! ## The service values, the drain request and the map -/

theorem TenantOk.quiet_service (h : TenantOk t) (hd : t.state ≠ .detached) (w th ho : Nat) :
    Quiet t { t with weight := w, threshold := th, holdoff := ho } :=
  TenantOk.quiet ⟨h.table, fun hs => absurd hs hd, h.rings, h.queue, h.windows, h.stopped, h.segment, h.mapFits⟩
    rfl rfl rfl rfl

theorem TenantOk.quiet_pendingMap {op : MapOp} (h : TenantOk t) (hd : t.state ≠ .detached) (ho : mapOpFits op) :
    Quiet t { t with pendingMap := some op } :=
  TenantOk.quiet ⟨h.table, fun hs => absurd hs hd, h.rings, h.queue, h.windows, h.stopped, h.segment,
    fun _ he => by cases he; exact ho⟩ rfl rfl rfl rfl

/-- An operation that fits keeps the canonical form (R109). -/
theorem mapOpSegment_wf {op : MapOp} {seg : Segment} (h : segmentWf seg = true) (ho : mapOpFits op) :
    segmentWf (mapOpSegment op seg) = true := by
  cases op with
  | load first entries => exact segWrite_wf h ho
  | clear first count => exact segClear_wf h ho

theorem TenantOk.quiet_applyMap {op : MapOp} (h : TenantOk t) (hd : t.state ≠ .detached) (ho : mapOpFits op) :
    Quiet t (applyMap op t) :=
  TenantOk.quiet ⟨h.table, fun hs => absurd hs hd, h.rings, h.queue, h.windows, h.stopped,
    mapOpSegment_wf h.segment ho, fun _ he => by cases he⟩ rfl rfl rfl rfl

/-- A DETACHED tenant holds no map operation. -/
theorem TenantOk.pendingMap_of_detached (h : TenantOk t) (hd : t.state = .detached) : t.pendingMap = none := by
  rw [h.detachedRow hd]; rfl

/-- DRAIN sets its flag; an IDLE target may enter PAUSED (R171). -/
theorem TenantOk.quiet_drain (h : TenantOk t) (hd : t.state ≠ .detached) : Quiet t (drainTenant t) := by
  unfold drainTenant
  split
  · rename_i hi
    obtain ⟨hi, _⟩ := hi
    have hrest : AtRest t := h.rows.atRest (by rw [hi]; rfl)
    exact ⟨AtRest.tenantOk (t := { t with drainRequested := true, state := .paused }) hrest
      (h.body (attached_of_state hi)) rfl (by simp), .of_not_runs (not_runs_of_state hi) (by simp [Runs])⟩
  · exact TenantOk.quiet ⟨h.table, fun hs => absurd hs hd, h.rings, h.queue, h.windows, h.stopped, h.segment, h.mapFits⟩
      rfl rfl rfl rfl

end
end Sys2Proof.Machine
end

section
set_option Elab.async false
/-!
# Fetch channels, posts, recovery steps and timers keep what is sound of a tenant
-/

namespace Sys2Proof.Machine

/-! ## The fetch channel -/

/-- The REFETCH of the current record's slot (R31). -/
def refetchRead (t : Tenant) (e : Entry) : FetchRead :=
  { kind := .refetch, seq := e.seq, addr := sqSlotAddr t.sqBase t.sqCode e.seq, discard := false }

section
variable {t : Tenant}

theorem issueRefetch_of_current {e : Entry} (hc : t.current = some e) :
    issueRefetch t = { t with chan := { t.chan with refetchWaiting := false, inFlight := some (refetchRead t e) } } := by
  unfold issueRefetch
  split <;> simp_all [refetchRead]

/-- A read leaves with no REFETCH waiting. -/
theorem endRead_of_not_waiting (h : t.chan.refetchWaiting = false) :
    endRead t = { t with chan := { t.chan with inFlight := none } } := by
  simp [endRead, h]

/-- A read leaves and the REFETCH that waited is issued (R31). -/
theorem endRead_of_waiting {e : Entry} (h : t.chan.refetchWaiting = true) (hc : t.current = some e) :
    endRead t = { t with chan := { t.chan with refetchWaiting := false, inFlight := some (refetchRead t e) } } := by
  unfold endRead
  rw [if_pos h]
  exact issueRefetch_of_current (t := { t with chan := { t.chan with inFlight := none } }) hc

theorem issueRefetch_state (t : Tenant) : (issueRefetch t).state = t.state := by
  unfold issueRefetch
  split <;> rfl

theorem endRead_state (t : Tenant) : (endRead t).state = t.state := by
  unfold endRead
  simp only
  split
  · exact issueRefetch_state _
  · rfl

/-- A channel whose new read and queue fit, with no REFETCH but the one of the recovery step. -/
theorem TenantOk.quiet_chan {c : Channel} (h : TenantOk t) (hd : t.state ≠ .detached)
    (hp : (t.producer - c.fetchIndex).toNat ≤ (t.producer - t.chan.fetchIndex).toNat)
    (hq : c.queue.length + (normalInFlight { t with chan := c }).toNat ≤ 4)
    (hr : c.refetchWaiting = true ∨ liveRefetch { t with chan := c } = true → t.recovery = some .refetchOutstanding)
    (ho : c.refetchWaiting = true → liveRefetch { t with chan := c } = false) : Quiet t { t with chan := c } := by
  obtain ⟨h1, h2, h3, h4, h5, h6, h7, h8, h9, h10, h11⟩ := h.table
  exact TenantOk.quiet ⟨⟨h1, h2, h3, h4, h5, h6, h7, hr, ho, h10, h11⟩, fun hs => absurd hs hd,
    fun ha => by
      obtain ⟨⟨hr1, hr2, hr3, hr4, hr5, hr6⟩, _⟩ := h.body ha
      exact ⟨hr1, hr2, hr3, hr4, hp.trans hr5, hr6⟩,
    hq, h.windows, h.stopped, h.segment, h.mapFits⟩ rfl rfl rfl rfl

/-- The NORMAL read of the next slot (R27). -/
theorem TenantOk.quiet_issueFetch (h : TenantOk t) (hf : fetchReady t = true) : Quiet t (issueFetch t) := by
  simp only [fetchReady, Bool.and_eq_true, Bool.not_eq_true', bne_iff_ne, decide_eq_true_eq] at hf
  obtain ⟨⟨⟨⟨⟨⟨ha, hne⟩, _⟩, hlen⟩, _⟩, _⟩, hw⟩ := hf
  refine h.quiet_chan (attached_iff.1 ha).1 (by bv_omega) ?_ ?_ ?_
  · have : (normalInFlight (issueFetch t)).toNat = 1 := rfl
    simp only [issueFetch] at this ⊢
    rw [this]
    exact hlen
  · simp [hw, liveRefetch]
  · simp [hw]

/-- A read leaves the channel with its answer dropped (R19). -/
theorem TenantOk.quiet_dropRead (h : TenantOk t) :
    Quiet t { t with chan := { t.chan with inFlight := none } } := by
  by_cases hd : t.state = .detached
  · have hdet := congrArg (fun t : Tenant => { t with chan := { t.chan with inFlight := none } }) (h.detachedRow hd)
    have hrest : AtRest { t with chan := { t.chan with inFlight := none } } := by
      obtain ⟨h1, h2, h3, h4, h5, h6, h7, h8⟩ := h.rows.atRest (by rw [hd]; rfl)
      exact ⟨h1, h2, h3, h4, h5, h6, rfl, h8⟩
    have hq := h.queue
    exact TenantOk.quiet ⟨tenantTable_iff.2 (hrest.rows (by rw [hd]; rfl)), fun _ => hdet, h.rings,
      by simp only [normalInFlight, Bool.toNat_false]; omega,
      h.windows, h.stopped, h.segment, h.mapFits⟩ rfl rfl rfl rfl
  · have hq := h.queue
    refine h.quiet_chan hd le_rfl (by simp only [normalInFlight, Bool.toNat_false]; omega) ?_ (fun _ => rfl)
    rintro (hw | hl)
    · exact h.rows.refetchStep (.inl hw)
    · cases hl

/-- A waiting REFETCH is withdrawn at a soft reset (R26). -/
theorem TenantOk.quiet_withdrawRefetch (h : TenantOk t) :
    Quiet t { t with chan := { t.chan with refetchWaiting := false } } := by
  by_cases hd : t.state = .detached
  · have hw : { t with chan := { t.chan with refetchWaiting := false } } = t := by
      rw [h.detachedRow hd]; rfl
    rw [hw]
    exact h.quiet_refl
  · refine h.quiet_chan hd le_rfl h.queue ?_ (by simp)
    rintro (hw | hl)
    · cases hw
    · exact h.rows.refetchStep (.inr hl)

/-- A read that leaves, with this queue and stop after it, and the REFETCH that waited issued (R31). -/
theorem TenantOk.quiet_endRead {q : List Entry} {b : Bool} (h : TenantOk t) (hd : t.state ≠ .detached)
    (hq : q.length ≤ 4) : Quiet t (endRead { t with chan := { t.chan with queue := q, stop := b } }) := by
  cases hw : t.chan.refetchWaiting with
  | false =>
    rw [endRead_of_not_waiting (t := { t with chan := { t.chan with queue := q, stop := b } }) hw]
    exact h.quiet_chan hd le_rfl (by simpa [normalInFlight] using hq) (by simp [hw, liveRefetch]) (by simp [hw])
  | true =>
    have hrec := h.rows.refetchStep (.inl hw)
    have hhalt := h.rows.recoveryStates (by simp [hrec])
    have hcur := h.rows.current
    rw [hhalt] at hcur
    obtain ⟨e, he⟩ := Option.isSome_iff_exists.1 hcur
    rw [endRead_of_waiting (t := { t with chan := { t.chan with queue := q, stop := b } }) hw he]
    exact h.quiet_chan hd le_rfl hq (fun _ => hrec) (by simp)

/-- A tenant with no read of its own in flight. -/
theorem normalInFlight_eq_false_of_none (h : t.chan.inFlight = none) : normalInFlight t = false := by
  simp [normalInFlight, h]

/-- Taking the head of the queue between two records (R5, R8). -/
theorem AtRest.tenantOk_takeHead {e : Entry} {rest : List Entry} (h : AtRest t) (hb : BodyOk t)
    (hq : t.chan.queue = e :: rest) (k : TenantId) : TenantOk (takeHead k t) := by
  obtain ⟨h1, h2, h3, h4, h5, h6, h7, h8, h9, h10⟩ := h
  obtain ⟨hr, hlen, hw, hseg, hmap⟩ := hb
  unfold takeHead
  simp only [hq]
  refine HasRecord.tenantOk_admitCurrent
    (t := { t with current := some e, chan := { t.chan with queue := rest } }) ⟨rfl, h3, h6, h7, h8, h9, h10⟩
    ⟨hr, ?_, hw, hseg, hmap⟩ h2 h4 h5 k
  rw [hq, List.length_cons] at hlen
  have : normalInFlight { t with current := some e, chan := { t.chan with queue := rest } } = normalInFlight t := rfl
  simp only [this]
  omega

theorem not_runs_refuseRecord (k : TenantId) (t : Tenant) (r : Reason) : ¬Runs (refuseRecord k t r) := by
  rcases refuseRecord_cases k t r with ⟨_, he⟩ | ⟨_, he⟩ <;> rw [he] <;> simp [Runs]

theorem not_runs_startWait (k : TenantId) {t : Tenant} (h : ¬Runs t) (r : Record) : ¬Runs (startWait k t r) := by
  rcases startWait_cases k t r with he | ⟨l, _, _, _, he⟩ <;> rw [he]
  · exact not_runs_refuseRecord k _ _
  · exact h

/-- No taking of a record begins a run. -/
theorem not_runs_admitCurrent (k : TenantId) {t : Tenant} (h : ¬Runs t) : ¬Runs (admitCurrent k t) := by
  rcases admitCurrent_cases k t with he | he | ⟨r, he⟩ | ⟨r, he⟩ | he <;> rw [he]
  · exact h
  · simp [Runs, haltFetchError]
  · exact not_runs_refuseRecord k _ _
  · exact not_runs_startWait k (by simp [Runs]) r
  · simp [Runs]

theorem not_runs_takeHead (k : TenantId) {t : Tenant} (h : ¬Runs t) : ¬Runs (takeHead k t) := by
  unfold takeHead
  split
  · exact h
  · exact not_runs_admitCurrent k h

/-- An entry joins the queue as its NORMAL read leaves; an IDLE tenant takes it (R28, R29). -/
theorem TenantOk.quiet_joinQueue {r : FetchRead} {b : Bool} (h : TenantOk t)
    (hr : readInFlight t .normal false = some r) (e : Entry) (k : TenantId) :
    Quiet t (joinQueue k { t with chan := { t.chan with stop := b } } e) := by
  have hnormal : normalInFlight t = true := by
    unfold readInFlight at hr
    unfold normalInFlight
    split at hr
    · split at hr <;> simp_all
    · cases hr
  have hd : t.state ≠ .detached := by
    intro hd
    rw [h.detachedRow hd] at hnormal
    unfold normalInFlight detachedValues markRead at hnormal
    cases hi : t.chan.inFlight <;> simp [hi] at hnormal
  have hlen : (t.chan.queue ++ [e]).length ≤ 4 := by
    have := h.queue
    rw [hnormal] at this
    simpa using this
  have hread := h.quiet_endRead (b := b) hd hlen
  unfold joinQueue
  simp only
  split
  · rename_i hidle
    have hs : t.state = .idle := by
      rw [endRead_state] at hidle
      exact hidle
    have hrest := hread.ok.rows.atRest (by rw [hidle]; rfl)
    have hrun : ¬Runs (endRead { t with chan := { t.chan with queue := t.chan.queue ++ [e], stop := b } }) :=
      not_runs_of_state hidle
    refine ⟨?_, .of_not_runs (not_runs_of_state hs) (not_runs_takeHead k hrun)⟩
    have hw : t.chan.refetchWaiting = false :=
      h.rows.refetchWaiting_eq_false (by simp [h.rows.recovery_eq_none (by simp [hs])])
    rcases hq : (endRead { t with chan := { t.chan with queue := t.chan.queue ++ [e], stop := b } }).chan.queue with
      _ | ⟨x, xs⟩
    · rw [endRead_of_not_waiting
        (t := { t with chan := { t.chan with queue := t.chan.queue ++ [e], stop := b } }) hw] at hq
      simp at hq
    · exact hrest.tenantOk_takeHead (hread.ok.body (attached_of_state hidle)) hq k
  · exact hread

end
end Sys2Proof.Machine
end

section
set_option Elab.async false
/-!
# REFETCH answers, posts, recovery steps, attach and timers keep what is sound of a tenant
-/

namespace Sys2Proof.Machine

/-! ## REFETCH -/

/-- Clearing the stop keeps it only for a failed entry that is queued (R30). -/
theorem clearStop_eq (t : Tenant) :
    clearStop t = { t with chan := { t.chan with stop := t.chan.stop && queueHasFailed t.chan.queue } } := by
  unfold clearStop
  cases hq : queueHasFailed t.chan.queue with
  | false => simp
  | true => simp only [if_true, Bool.and_true]

/-- The body of a tenant whose read has left the channel. -/
theorem BodyOk.read_gone {t : Tenant} {b : Bool} (h : BodyOk t) :
    BodyOk { t with chan := { t.chan with inFlight := none, stop := b } } := by
  obtain ⟨hr, hq, hw, hs, hm⟩ := h
  exact ⟨hr, by simp only [normalInFlight, Bool.toNat_false]; omega, hw, hs, hm⟩

section
variable {t : Tenant}

theorem readInFlight_eq_some_iff {kd : ReadKind} {d : Bool} {r : FetchRead} :
    readInFlight t kd d = some r ↔ t.chan.inFlight = some r ∧ r.kind = kd ∧ r.discard = d := by
  unfold readInFlight
  split
  · split <;> simp_all
    all_goals rintro rfl; assumption
  · simp_all

/-- What the table says while a REFETCH of this attachment is in flight. -/
theorem TenantOk.of_liveRefetch (h : TenantOk t) {r : FetchRead} (hr : readInFlight t .refetch false = some r) :
    t.state = .halted ∧ t.cu.pending = none ∧ t.progress = none ∧ t.chan.refetchWaiting = false ∧
      t.wait = .stopped ∧ t.waitTimer = none := by
  obtain ⟨hi, hk, hd⟩ := readInFlight_eq_some_iff.1 hr
  have hl : liveRefetch t = true := by simp [liveRefetch, hi, hk, hd]
  have hrec := h.rows.refetchStep (.inr hl)
  have hs := h.rows.recoveryStates (by simp [hrec])
  obtain ⟨hp, hh⟩ := h.rows.refetchHalt hrec
  have hw : t.chan.refetchWaiting = false := by
    cases hw : t.chan.refetchWaiting with
    | false => rfl
    | true => simp [h.rows.oneRefetch hw] at hl
  refine ⟨hs, hp, ?_, hw, h.rows.wait_eq_stopped (by simp [hs]), h.rows.waitTimer_eq_none (by simp [hs])⟩
  rcases hh with hh | hh
  · exact h.rows.progress_eq_none_of_haltReason hh rfl (by simp)
  · exact h.rows.progress_eq_none_of_haltReason hh rfl (by simp)

/-- An acknowledged REFETCH (R32). -/
theorem TenantOk.quiet_refetched {r : FetchRead} (h : TenantOk t) (hr : readInFlight t .refetch false = some r)
    (k : TenantId) (data : Record) : Quiet t (refetched k t r.seq data) := by
  obtain ⟨hs, hp, hg, hw, hwait, htimer⟩ := h.of_liveRefetch hr
  have hrun : ¬Runs t := not_runs_of_state hs
  unfold refetched
  simp only [hs, if_true, clearStop_eq]
  exact ⟨HasRecord.tenantOk_admitCurrent
      (t := { t with
        chan := { t.chan with inFlight := none, stop := t.chan.stop && queueHasFailed t.chan.queue },
        current := some ⟨r.seq, .record data⟩, haltReason := none, recovery := none })
      ⟨rfl, rfl, hw, rfl, hwait, htimer, h.rows.holdoffTimer_ne⟩ (h.body (attached_of_state hs)).read_gone rfl hp hg k,
    .of_not_runs hrun (not_runs_admitCurrent k (by simp [Runs]))⟩

/-- A REFETCH that received an error response (R32). -/
theorem TenantOk.quiet_refetchFailed {r : FetchRead} (h : TenantOk t) (hr : readInFlight t .refetch false = some r)
    (k : TenantId) : Quiet t (refetchFailed k t r.seq) := by
  obtain ⟨hs, hp, hg, hw, hwait, htimer⟩ := h.of_liveRefetch hr
  unfold refetchFailed
  simp only [hs, if_true]
  exact ⟨HasRecord.tenantOk_enterHalted
      (t := { t with
        chan := { t.chan with inFlight := none, stop := true }, current := some ⟨r.seq, .failed⟩, recovery := none })
      ⟨rfl, rfl, hw, rfl, hwait, htimer, h.rows.holdoffTimer_ne⟩ (h.body (attached_of_state hs)).read_gone rfl rfl hg
      (by simp),
    .of_not_runs (not_runs_of_state hs) (by simp [Runs, haltFetchError])⟩

/-- A marked read leaves (R34). -/
theorem TenantOk.quiet_endDiscardedRead (h : TenantOk t) : Quiet t (endDiscardedRead t) := by
  have hread : Quiet t (endRead t) := by
    by_cases hd : t.state = .detached
    · rw [endRead_of_not_waiting (by rw [h.detachedRow hd]; rfl)]
      exact h.quiet_dropRead
    · exact h.quiet_endRead (q := t.chan.queue) (b := t.chan.stop) hd (by have := h.queue; omega)
  unfold endDiscardedRead
  simp only
  split
  · rename_i hi
    have hb := hread.ok.body (attached_of_state hi.1)
    have hrest : AtRest { endRead t with state := .paused } := hread.ok.rows.atRest (by rw [hi.1]; rfl)
    have hs : t.state = .idle := (endRead_state t).symm.trans hi.1
    exact ⟨AtRest.tenantOk hrest hb rfl (by simp), .of_not_runs (not_runs_of_state hs) (by simp [Runs])⟩
  · exact hread

end

/-! ## Posts -/

theorem postInFlight_eq_some_iff {cu : CompletionUnit} {c : Completion} :
    postInFlight cu = some c ↔ PostOutstanding cu c := by
  unfold postInFlight PostOutstanding livePost
  split
  · split <;> simp_all
  · rename_i hne
    constructor
    · simp
    · rintro ⟨hp, hl⟩
      split at hl
      · exact absurd hp (hne _ _ (by assumption))
      · simp at hl

/-- A ring with a post in flight has room for it, and holds it once acknowledged (R145, R150). -/
theorem CompletionRingOk.acknowledge {cu : CompletionUnit} {code n : Nat} {c : Completion} (hn : n ≤ 6)
    (h : CompletionRingOk cu n) (hl : livePost cu = true) : CompletionRingOk (acknowledgePost cu code c) n := by
  have hslots : ringSlots n ≤ 1024 := by
    have : 2 ^ n ≤ 2 ^ 6 := Nat.pow_le_pow_right (by omega) hn
    simp only [ringSlots]
    omega
  have hpost : (livePost (acknowledgePost cu code c)).toNat = 0 := rfl
  have hu : unconsumed (acknowledgePost cu code c) ≤ unconsumed cu + 1 := by
    simp only [unconsumed, acknowledgePost]
    bv_omega
  unfold CompletionRingOk at *
  rw [hl] at h
  simp only [Bool.toNat_true] at h
  omega

section
variable {t : Tenant} {k : TenantId} {c : Completion}

/-- The record boundary (R8, R9). -/
theorem tenantOk_recordBoundary (hb : BodyOk t) (hr : AtRest { t with
      current := none, ackReport := none, cu := { t.cu with pending := none } }) : TenantOk (recordBoundary k t) := by
  unfold recordBoundary
  simp only
  split
  · rename_i e rest hq
    exact hr.tenantOk_takeHead (t := { t with current := none, ackReport := none, cu := { t.cu with pending := none } })
      hb hq k
  · split
    · exact AtRest.tenantOk
        (t := { t with current := none, ackReport := none, cu := { t.cu with pending := none }, state := .paused })
        hr hb rfl (by simp)
    · exact AtRest.tenantOk
        (t := { t with current := none, ackReport := none, cu := { t.cu with pending := none }, state := .idle })
        hr hb rfl (by simp)

theorem not_runs_recordBoundary (h : ¬Runs t) : ¬Runs (recordBoundary k t) := by
  unfold recordBoundary
  simp only
  split
  · exact not_runs_takeHead k h
  · split <;> simp [Runs]

/-- An error response to a post (R148). -/
theorem TenantOk.quiet_failTenantPost (h : TenantOk t) (hc : PostOutstanding t.cu c) : Quiet t (failTenantPost t) := by
  obtain ⟨hp, hl⟩ := hc
  have hs := h.rows.pendingStates (by simp [hp])
  have hrec : t.recovery ≠ some .refetchOutstanding := fun hr => by simp [(h.rows.refetchHalt hr).1] at hp
  have ha : attached t = true := by rw [attached_iff]; rcases hs with hs | hs <;> simp [hs]
  have hruns : ¬Runs t := by rcases hs with hs | hs <;> simp [Runs, hs]
  obtain ⟨hrings, hq, hw, hseg, hmap⟩ := h.body ha
  unfold failTenantPost
  simp only [if_pos hs]
  have hrow : HasRecord { t with recovery := none } := by
    have hcur : t.current.isSome = true := by rw [h.rows.current]; rcases hs with hs | hs <;> simp [hs, holdsRecord]
    have hwaiting : t.state ≠ .waiting := by rcases hs with hs | hs <;> simp [hs]
    exact ⟨hcur, rfl, h.rows.refetchWaiting_eq_false hrec, h.rows.liveRefetch_eq_false hrec,
      h.rows.wait_eq_stopped hwaiting, h.rows.waitTimer_eq_none hwaiting, h.rows.holdoffTimer_ne⟩
  have hbody : BodyOk { t with cu := { t.cu with post := none, alert := recordAlert t.cu.alert .post } } :=
    ⟨⟨hrings.1, hrings.2.1, hrings.2.2.1, hrings.2.2.2.1, hrings.2.2.2.2.1,
      hrings.2.2.2.2.2.mono le_rfl (by simp [livePost])⟩, hq, hw, hseg, hmap⟩
  refine ⟨.of_body hbody (HasRecord.rows hrow rfl (by simp) rfl (by simp) (by simp) ?_ ?_ h.rows.interimHalts)
    (by simp) ?_, .of_not_runs hruns (by simp [Runs])⟩
  · intro hg
    obtain ⟨_, _, hpend⟩ := h.rows.progress hg
    exact ⟨rfl, rfl, hpend⟩
  · rintro (ht | ht)
    · simp at ht
    · exact h.rows.wait.2.1 (.inr (.inr ht))
  · intro g hg _
    refine h.stopped g hg (.inr ?_)
    rcases hs with hs | hs
    · simp [h.rows.progress_eq_none (by simp [hs, mayHoldProgress])] at hg
    · exact hs

end
end Sys2Proof.Machine
end

section
set_option Elab.async false
/-!
# Recovery steps, attach, detach and timers keep what is sound of a tenant
-/

namespace Sys2Proof.Machine

section
variable {t : Tenant} {k : TenantId}

/-! ## Recovery steps (sections 7.3 to 7.7) -/

/-- A HALTED tenant's recovery step is discarded or recorded; a REFETCH is not its step. -/
theorem TenantOk.tenantOk_recovery {r : Option Recovery} (h : TenantOk t) (hs : t.state = .halted)
    (ho : t.recovery ≠ some .refetchOutstanding) (hr : r ≠ some .refetchOutstanding) :
    TenantOk { t with recovery := r } := by
  obtain ⟨h1, h2, h3, h4, _, h6, h7, h8, h9, _, h11⟩ := h.table
  exact ⟨⟨h1, h2, h3, h4, fun _ => hs, h6, h7, fun hx => absurd (h8 hx) ho, h9, fun hx => absurd hx hr, h11⟩,
    fun hd => by simp [hs] at hd, h.rings, h.queue, h.windows, h.stopped, h.segment, h.mapFits⟩

theorem beginRefetch_of_none {e : Entry} (hi : t.chan.inFlight = none) (hc : t.current = some e) :
    beginRefetch t = { t with
      recovery := some .refetchOutstanding,
      chan := { t.chan with refetchWaiting := false, inFlight := some (refetchRead t e) } } := by
  unfold beginRefetch
  simp only [hi, if_true]
  exact issueRefetch_of_current (t := { t with recovery := some .refetchOutstanding }) hc

theorem beginRefetch_of_some (hi : t.chan.inFlight ≠ none) :
    beginRefetch t = { t with recovery := some .refetchOutstanding, chan := { t.chan with refetchWaiting := true } } := by
  simp [beginRefetch, hi]

theorem beginRefetch_state (t : Tenant) : (beginRefetch t).state = t.state := by
  unfold beginRefetch
  simp only
  split
  · exact issueRefetch_state _
  · rfl

/-- A TIMEOUT halt's WAIT begins afresh (R126). -/
theorem restartWait_of_record {q : Index} {d : Record} (hc : t.current = some ⟨q, .record d⟩) :
    restartWait k t = startWait k { t with haltReason := none, state := .waiting } d := by
  unfold restartWait
  simp only
  split <;> simp_all

/-- The REFETCH of a RETRY after a FETCH_ERROR or INVALID halt (R125). -/
theorem TenantOk.tenantOk_beginRefetch (h : TenantOk t) (hs : t.state = .halted) (hr : t.recovery = none)
    (hp : t.cu.pending = none) (hh : t.haltReason = some .fetchError ∨ t.haltReason = some .invalid) :
    TenantOk (beginRefetch t) := by
  have hl := h.rows.liveRefetch_eq_false (by simp [hr])
  obtain ⟨h1, h2, h3, h4, _, h6, h7, _, _, _, h11⟩ := h.table
  have hok : ∀ c : Channel, c.queue.length + (normalInFlight { t with chan := c }).toNat ≤ 4 →
      c.fetchIndex = t.chan.fetchIndex →
      (c.refetchWaiting = true → liveRefetch { t with chan := c } = false) →
      TenantOk { t with recovery := some .refetchOutstanding, chan := c } := by
    intro c hq hf hc
    refine ⟨⟨h1, h2, h3, h4, fun _ => hs, h6, h7, fun _ => rfl, hc, fun _ => ⟨hp, hh⟩, h11⟩,
      fun hd => by simp [hs] at hd, fun ha => ?_, hq, h.windows, h.stopped, h.segment, h.mapFits⟩
    obtain ⟨⟨hr1, hr2, hr3, hr4, hr5, hr6⟩, _⟩ := h.body ha
    exact ⟨hr1, hr2, hr3, hr4, by rw [hf]; exact hr5, hr6⟩
  by_cases hi : t.chan.inFlight = none
  · obtain ⟨e, he⟩ := Option.isSome_iff_exists.1 (by rw [h.rows.current, hs]; rfl : t.current.isSome = true)
    have hq := h.queue
    rw [beginRefetch_of_none hi he]
    exact hok _ (by simp only [normalInFlight_eq_false_of_none hi] at hq; exact hq) rfl (by simp)
  · rw [beginRefetch_of_some hi]
    exact hok _ h.queue rfl fun _ => hl

/-- A halt reason that an interim completion's status names is no progress-keeping reason unless the status is a fault's. -/
theorem isFaultHalt_of_status {st : Status} {r : HaltReason} (h : haltReasonOf st = some r)
    (hf : isFaultStatus st = true) : isFaultHalt r = true := by
  cases st <;> simp_all [haltReasonOf, isFaultStatus] <;> subst h <;> rfl

/-- RETRY of a HALTED tenant (R124 to R127). -/
theorem TenantOk.tenantOk_retryHalted (h : TenantOk t) (hs : t.state = .halted) (hr : t.recovery = none)
    (hp : t.cu.pending = none ∨ t.haltReason = some .postError) :
    TenantOk (retryHalted k t) ∧ ¬Runs (retryHalted k t) := by
  have hrec := h.rows.hasRecord (by rw [hs]; rfl) (by simp [hs]) hr
  have hb := h.body (attached_of_state hs)
  have hhalted : ¬Runs t := not_runs_of_state hs
  have hpend : ∀ r, t.haltReason = some r → r ≠ .postError → t.cu.pending = none := by
    intro r he hne
    rcases hp with hp | hp
    · exact hp
    · exact absurd (by simpa [he] using hp) hne
  have hready : ∀ r, t.haltReason = some r → isFaultHalt r = true →
      TenantOk { t with haltReason := none, state := .ready } := by
    intro r he hf
    have hp' := hpend r he (by rintro rfl; simp [isFaultHalt] at hf)
    refine .of_body hb (HasRecord.rows (t := { t with haltReason := none, state := .ready }) hrec rfl (by simp) rfl
      (by simp [hp']) (by simp) ?_ (by simp [hp']) (by simp [hp'])) (by simp) fun g hg _ => h.stopped g hg (.inr hs)
    intro _
    exact ⟨rfl, rfl, by simp [hp']⟩
  unfold retryHalted
  rcases he : t.haltReason with _ | r
  · exact ⟨h, hhalted⟩
  · cases r <;> simp only
    case absent | noRead | noWrite | busError =>
      exact ⟨hready _ he rfl, by simp [Runs]⟩
    case fetchError | invalid =>
      exact ⟨h.tenantOk_beginRefetch hs hr (hpend _ he (by simp)) (by simp [he]),
        not_runs_of_state ((beginRefetch_state t).trans hs)⟩
    case timeout =>
      have hcur := h.rows.wait.2.1 (.inr (.inl he))
      have hg := h.rows.progress_eq_none_of_haltReason he rfl (by simp)
      rcases hc : t.current with _ | ⟨q, d | _⟩
      · simp [currentIsRecord, hc] at hcur
      · rw [restartWait_of_record hc]
        exact ⟨HasRecord.tenantOk_startWait (t := { t with haltReason := none }) hrec hb rfl (hpend _ he (by simp)) hg
          hcur k d, not_runs_startWait k (by simp [Runs]) d⟩
      · simp [currentIsRecord, hc] at hcur
    case postError =>
      rcases hc : t.cu.pending with _ | c
      · exact ⟨h, hhalted⟩
      · simp only
        have hprog := h.rows.progress
        split
        · rename_i hi
          obtain ⟨r, hr'⟩ := Option.isSome_iff_exists.1 (h.rows.interimHalts c hc hi)
          refine ⟨.of_body hb (HasRecord.rows (t := { t with haltReason := haltReasonOf c.status }) hrec (by rw [hs]; rfl)
            (by simp [hs]) (by simp [hr', hs]) (by simp [hs]) (by simp [hs]) ?_ ?_ h.rows.interimHalts) (by simp [hs])
            h.stopped, hhalted⟩
          · intro hg
            obtain ⟨h1, _, h3⟩ := hprog hg
            refine ⟨h1, ?_, h3⟩
            have hf : isFaultStatus c.status = true := by simpa [hc, hi] using h3
            simp [hr', isFaultHalt_of_status hr' hf]
          · rintro (ht | ht)
            · refine h.rows.wait.2.1 (.inr (.inr ?_))
              have : c.status = .timeout := by
                have ht' : haltReasonOf c.status = some .timeout := ht
                cases hst : c.status <;> simp [hst, haltReasonOf] at ht'
                rfl
              simp [hc, hi, this]
            · exact h.rows.wait.2.1 (.inr (.inr ht))
        · rename_i hi
          have hg : t.progress = none := by
            cases hg : t.progress with
            | none => rfl
            | some g => have := (hprog (by simp [hg])).2.2; simp [hc, hi] at this
          exact ⟨.of_body hb (HasRecord.rows (t := { t with haltReason := none, state := .posting }) hrec rfl (by simp)
            rfl (by simp) (by simp [hc]) (by simp [ProgressRow, hg]) (by simp [hc, hi]) (by simp [hc, hi])) (by simp)
            (.of_progress_eq_none hg), by simp [Runs]⟩

/-- SKIP of a HALTED tenant (R128). -/
theorem TenantOk.tenantOk_skipHalted (h : TenantOk t) (hs : t.state = .halted) (hr : t.recovery = none) :
    TenantOk (skipHalted k t) ∧ ¬Runs (skipHalted k t) := by
  have hrec := h.rows.hasRecord (by rw [hs]; rfl) (by simp [hs]) hr
  have hpost : ∀ c : Completion, c.interim = false → TenantOk (enterPosting { t with haltReason := none } c) :=
    fun c hc => HasRecord.tenantOk_enterPosting (t := { t with haltReason := none }) hrec
      (h.body (attached_of_state hs)) rfl hc
  unfold skipHalted
  simp only
  split
  · rw [clearStop_eq]
    have hq := hpost (tenantCompletion k t .skipped .none false (skippedCounts t).1 (skippedCounts t).2.1
      (skippedCounts t).2.2 (windowCursor t) 0) rfl
    exact ⟨(hq.quiet_chan (c := { t.chan with stop := t.chan.stop && queueHasFailed t.chan.queue }) (by simp) le_rfl
      hq.queue hq.rows.refetchStep hq.rows.oneRefetch).ok, by simp [Runs]⟩
  · exact ⟨hpost _ rfl, by simp [Runs]⟩

/-- A RESUME whose checks have passed (R122, R123, R129). -/
theorem TenantOk.quiet_resume (h : TenantOk t) {skip : Bool} (hr : resumeRefused t skip = false) :
    Quiet t (resumeTenant k t skip) := by
  simp only [resumeRefused, Bool.or_eq_false_iff, Bool.and_eq_false_iff, bne_eq_false_iff_eq, beq_eq_false_iff_ne] at hr
  obtain ⟨⟨hst, hrec⟩, _⟩ := hr
  have hruns : ¬Runs t := by rcases hst with hs | hs <;> simp [Runs, hs]
  unfold resumeTenant
  split
  · rename_i hs
    have hrest : AtRest (resumePaused t) := h.rows.atRest (by rw [hs]; rfl)
    exact ⟨hrest.tenantOk (h.body (attached_of_state hs)) rfl (by simp [resumePaused]),
      .of_not_runs hruns (by simp [Runs, resumePaused])⟩
  · rename_i hpaused
    have hs : t.state = .halted := hst.resolve_right hpaused
    have hnone : t.recovery = none := by
      rcases hrec with hrec | hrec
      · exact absurd hs hrec
      · simpa using hrec
    split
    · exact ⟨h.tenantOk_recovery hs (by simp [hnone]) (by split <;> simp), .of_not_runs hruns hruns⟩
    · rename_i hp
      split
      · obtain ⟨hok, hrun⟩ := h.tenantOk_skipHalted (k := k) hs hnone
        exact ⟨hok, .of_not_runs hruns hrun⟩
      · obtain ⟨hok, hrun⟩ := h.tenantOk_retryHalted (k := k) hs hnone (by
          by_cases hpe : t.haltReason = some .postError
          · exact .inr hpe
          · left
            cases hc : t.cu.pending with
            | none => rfl
            | some c => exact absurd ⟨by simp [hc], hpe⟩ hp)
        exact ⟨hok, .of_not_runs hruns hrun⟩

/-! ## The acknowledgement of a post (R145) -/

/-- The tenant with its post acknowledged and its holdoff timer loaded, before the posted report. -/
def ackedTenant (t : Tenant) (c : Completion) : Tenant :=
  { t with
    cu := acknowledgePost t.cu t.cqCode c,
    holdoffTimer := if unconsumed t.cu = 0 ∧ t.holdoff ≠ 0 then some t.holdoff else t.holdoffTimer }

theorem ackTenantPost_eq (c : Completion) : ackTenantPost k t c = postedReport k (ackedTenant t c) := rfl

theorem TenantOk.quiet_ackTenantPost {c : Completion} (h : TenantOk t) (hc : PostOutstanding t.cu c) :
    Quiet t (ackTenantPost k t c) := by
  obtain ⟨hp, hl⟩ := hc
  have hst := h.rows.pendingStates (by simp [hp])
  have ha : attached t = true := by rw [attached_iff]; rcases hst with hs | hs <;> simp [hs]
  have hruns : ¬Runs t := by rcases hst with hs | hs <;> simp [Runs, hs]
  obtain ⟨⟨hr1, hr2, hr3, hr4, hr5, hr6⟩, hbody⟩ := h.body ha
  have hb : BodyOk (ackedTenant t c) := ⟨⟨hr1, hr2, hr3, hr4, hr5, hr6.acknowledge hr2 hl⟩, hbody⟩
  have htimer : (ackedTenant t c).holdoffTimer ≠ some 0 := by
    have := h.rows.holdoffTimer_ne
    simp only [ackedTenant]
    split <;> simp_all
  have hrec : t.recovery ≠ some .refetchOutstanding := fun hr => by simp [(h.rows.refetchHalt hr).1] at hp
  have hrefetch := h.rows.refetchWaiting_eq_false hrec
  have hlive := h.rows.liveRefetch_eq_false hrec
  rw [ackTenantPost_eq]
  unfold postedReport
  rcases hst with hs | hs
  · have hs' : (ackedTenant t c).state = .posting := hs
    simp only [hs']
    have hnot : t.state ≠ .halted := by simp [hs]
    have hrest : AtRest { ackedTenant t c with
        current := none, ackReport := none, cu := { (ackedTenant t c).cu with pending := none } } :=
      ⟨rfl, h.rows.haltReason_eq_none hnot, h.rows.recovery_eq_none hnot, rfl,
        h.rows.progress_eq_none (by rw [hs]; rfl), hrefetch, hlive, h.rows.wait_eq_stopped (by simp [hs]),
        h.rows.waitTimer_eq_none (by simp [hs]), htimer⟩
    exact ⟨tenantOk_recordBoundary hb hrest, .of_not_runs hruns (not_runs_recordBoundary (by simp [Runs, hs']))⟩
  · have hs' : (ackedTenant t c).state = .halted := hs
    simp only [hs']
    have hpnone : (ackedTenant t c).cu.pending = none := rfl
    have hok : TenantOk (ackedTenant t c) := by
      refine .of_body hb ⟨h.rows.current, h.rows.haltReason, by simp [hpnone], by simp [hs'], h.rows.recoveryStates, ?_,
        ⟨h.rows.wait.1, ?_, h.rows.wait.2.2.1, h.rows.wait.2.2.2.1, htimer⟩, h.rows.refetchStep, h.rows.oneRefetch,
        fun hr => absurd hr hrec, by simp [hpnone]⟩ (by simp [hs']) h.stopped
      · intro hg
        obtain ⟨h1, h2, _⟩ := h.rows.progress hg
        exact ⟨h1, h2, by simp [hpnone]⟩
      · rintro (hx | hx | hx)
        · exact h.rows.wait.2.1 (.inl hx)
        · exact h.rows.wait.2.1 (.inr (.inl hx))
        · simp [hpnone] at hx
    have hclear : TenantOk { ackedTenant t c with recovery := none } := hok.tenantOk_recovery hs' hrec (by simp)
    unfold recoverAfterPost
    rcases hr : (ackedTenant t c).recovery with _ | r
    · exact ⟨hok, .of_not_runs hruns hruns⟩
    · cases r <;> simp only
      case retryAfterPost =>
        obtain ⟨h1, h2⟩ := hclear.tenantOk_retryHalted (k := k) hs' rfl (.inl hpnone)
        exact ⟨h1, .of_not_runs hruns h2⟩
      case skipAfterPost =>
        obtain ⟨h1, h2⟩ := hclear.tenantOk_skipHalted (k := k) hs' rfl
        exact ⟨h1, .of_not_runs hruns h2⟩
      case refetchOutstanding => exact absurd hr hrec

/-! ## Attach and detach -/

/-- The codes and bases an ATTACH that passed its checks gives. -/
theorem attachCheck_eq_none {r : Record} (h : attachCheck r = none) :
    byteAt r 9 ≤ 6 ∧ byteAt r 10 ≤ 6 ∧ longAt r 16 < 2 ^ 40 ∧ longAt r 24 < 2 ^ 40 ∧ longAt r 16 % 64 = 0 ∧
      longAt r 24 % 32 = 0 := by
  unfold attachCheck at h
  split at h
  · cases h
  · split at h
    · cases h
    · omega

/-- A DETACHED target attaches (R167). -/
theorem TenantOk.quiet_attach {r : Record} (h : TenantOk t) (hd : t.state = .detached) (hr : attachCheck r = none) :
    Quiet t (attachTenant r t) := by
  obtain ⟨h1, h2, h3, h4, h5, h6⟩ := attachCheck_eq_none hr
  have hdet := h.detachedRow hd
  have hpost : livePost t.cu = false := by
    rw [hdet]
    simp only [detachedValues, markPost, livePost]
    cases t.cu.post <;> rfl
  have hzero : t.producer = 0 ∧ t.chan.fetchIndex = 0 ∧ t.cu.writeIndex = 0 ∧ t.cu.consumer = 0 := by
    rw [hdet]; exact ⟨rfl, rfl, rfl, rfl⟩
  obtain ⟨hz1, hz2, hz3, hz4⟩ := hzero
  have hrest : AtRest (attachTenant r t) := h.rows.atRest (by rw [hd]; rfl)
  refine ⟨hrest.tenantOk ⟨⟨h1, h2, ?_, ?_, ?_, ?_⟩, h.queue, h.windows, h.segment, h.mapFits⟩ rfl
    (by simp [attachTenant]), .of_not_runs (not_runs_of_state hd) (by simp [Runs, attachTenant])⟩
  · simp only [attachTenant, BitVec.toNat_ofNat, Nat.mod_eq_of_lt h3, h5]
  · simp only [attachTenant, BitVec.toNat_ofNat, Nat.mod_eq_of_lt h4, h6]
  · simp [attachTenant, hz1, hz2]
  · simp [CompletionRingOk, attachTenant, hpost, unconsumed, hz3, hz4]

theorem markRead_markRead (r : Option FetchRead) : markRead (markRead r) = markRead r := by cases r <;> rfl

theorem markPost_markPost (p : Option Post) : markPost (markPost p) = markPost p := by cases p <;> rfl

/-- The detached values are sound, from any tenant (R20). -/
theorem tenantOk_detachTenant (t : Tenant) : TenantOk (detachTenant t) := by
  have hmark : ∀ r, markRead t.chan.inFlight = some r → r.discard = true := by
    intro r hr
    cases hi : t.chan.inFlight <;> simp [markRead, hi] at hr
    rw [← hr]
  have hlive : liveRefetch (detachTenant t) = false := by
    simp only [liveRefetch, detachTenant]
    cases hi : markRead t.chan.inFlight with
    | none => rfl
    | some r => simp [hmark r hi]
  have hnormal : normalInFlight (detachTenant t) = false := by
    simp only [normalInFlight, detachTenant]
    cases hi : markRead t.chan.inFlight with
    | none => rfl
    | some r => simp [hmark r hi]
  have hrest : AtRest (detachTenant t) := ⟨rfl, rfl, rfl, rfl, rfl, rfl, hlive, rfl, rfl, by simp [detachTenant]⟩
  refine ⟨tenantTable_iff.2 (hrest.rows rfl), fun _ => ?_, fun ha => by simp [attached] at ha, ?_, ?_,
    .of_progress_eq_none rfl, rfl, fun op ho => by cases ho⟩
  · simp only [detachedValues, detachTenant, markRead_markRead, markPost_markPost]
  · rw [hnormal]; simp [detachTenant]
  · refine ⟨fun i f hf => ?_, fun w hw => by cases hw⟩
    have : slotGet (detachTenant t).surfaces i = none := by fin_cases i <;> rfl
    simp [this] at hf

end
end Sys2Proof.Machine
end

section
set_option Elab.async false
/-!
# The timebase step of one tenant (R133, R134, R137 to R139, R154)

`timebaseTenant_eq` gives the step as the rules state it: the wait stepped by `waitStepped`, the holdoff timer by itself.
-/

namespace Sys2Proof.Machine

section
variable {t : Tenant} {k : TenantId} {latches : Lines}

/-- A tenant with both its timers decremented (R133). -/
def ticked (t : Tenant) : Tenant :=
  { t with waitTimer := tickTimer t.waitTimer, holdoffTimer := tickTimer t.holdoffTimer }

theorem tickTimer_eq_map (n : Option Nat) : tickTimer n = n.map fun m => m - 1 := by
  rcases n with _ | _ | n <;> rfl

/-- The expiry of a holdoff timer that the step brings to 0 (R154). -/
theorem expireHoldoff_eq {u : Tenant} {h : Option Nat} (hu : u.holdoffTimer = tickTimer h) (h0 : h ≠ some 0) :
    expireHoldoff u = { u with
      holdoffTimer := if h = some 1 then none else h.map fun n => n - 1,
      holdoffExpired := if h = some 1 then true else u.holdoffExpired } := by
  unfold expireHoldoff
  rcases h with _ | _ | _ | n
  · simp only [hu, tickTimer, Option.map_none, reduceCtorEq, if_false]
    rw [← show u.holdoffTimer = none from hu]
  · exact absurd rfl h0
  · simp [hu, tickTimer]
  · simp only [hu, tickTimer, Option.map_some, Nat.add_sub_cancel, Option.some.injEq, Nat.add_eq_right, Nat.add_eq_zero_iff,
      one_ne_zero, and_false, if_false]
    rw [← show u.holdoffTimer = some (n + 1) from hu]

theorem takeArrivals_of_stopped (h : t.wait = .stopped) : takeArrivals latches k t = t := by simp [takeArrivals, h]

theorem takeArrivals_of_latched {l : Line} {n : Nat} {b : Bool} (h : t.wait = .counting l n b)
    (hl : getLine latches l = true) : takeArrivals latches k t = takeArrival l k t := by simp [takeArrivals, h, hl]

theorem takeArrivals_of_clear {l : Line} {n : Nat} {b : Bool} (h : t.wait = .counting l n b)
    (hl : getLine latches l = false) : takeArrivals latches k t = t := by simp [takeArrivals, h, hl]

/-- An arrival that is not the last one. -/
theorem takeArrival_of_ne {l : Line} {n : Nat} {b : Bool} (h : t.wait = .counting l n b) (hn : t.tally + 1 ≠ n) :
    takeArrival l k t = { t with tally := t.tally + 1 } := by
  unfold takeArrival
  simp [h, hn]

/-- The last arrival of a WAITING tenant's count (R137). -/
theorem takeArrival_of_eq {l : Line} {n : Nat} {b : Bool} (h : t.wait = .counting l n b) (hn : t.tally + 1 = n)
    (hs : t.state = .waiting) :
    takeArrival l k t = enterPosting { t with tally := n, wait := .stopped, waitTimer := none }
      (tenantCompletion k t .ok .none false n 0 0 (windowCursor t) (BitVec.ofNat 32 (t.waitTimer.getD 0))) := by
  rcases takeArrival_cases l k t with ⟨hne, _⟩ | ⟨n', b', hw, hcases⟩
  · exact absurd h (hne n b)
  · rw [h] at hw
    obtain ⟨rfl, rfl⟩ : n = n' ∧ b = b' := by injection hw; exact ⟨‹_›, ‹_›⟩
    rcases hcases with ⟨hne, _⟩ | ⟨_, _, he⟩ | ⟨_, hns, _⟩
    · exact absurd hn hne
    · exact he
    · exact absurd hs hns

/-- What a halted or ended WAIT leaves when its timer expires: no further arrival counts. -/
theorem expireWait_wait {l : Line} {n : Nat} {b : Bool} (hw : t.wait = .counting l n b) (ht : t.waitTimer = some 0)
    (hs : t.state = .waiting) : (expireWait k t).wait = .stopped := by
  rw [expireWait_waiting hw ht hs]
  split <;> rfl

/-- A tenant that waits for nothing is stepped by its holdoff timer alone. -/
theorem waits_of_stopped (hw : t.wait = .stopped) (ht : t.waitTimer = none) (e : Bool) :
    (if (arrivalMeetsExpiry latches t && e) = true then takeArrivals latches k (expireWait k (ticked t))
      else expireWait k (takeArrivals latches k (ticked t))) =
    { waitStepped latches (!e) k t with holdoffTimer := tickTimer t.holdoffTimer } := by
  have hm : arrivalMeetsExpiry latches t = false := by simp [arrivalMeetsExpiry, hw]
  have hticked : ticked t = { t with holdoffTimer := tickTimer t.holdoffTimer } := by simp [ticked, ht, tickTimer]
  rw [hm, Bool.false_and, if_neg (by simp), takeArrivals_of_stopped (t := ticked t) hw,
    expireWait_of_ne (t := ticked t) (.inr hw), hticked]
  simp [waitStepped, hw]

section
variable {l : Line} {n : Nat} {b : Bool}

/-- No expiry at this step: the arrivals alone act. -/
theorem waits_of_no_expiry (hw : t.wait = .counting l n b) (hs : t.state = .waiting) (h0 : t.waitTimer ≠ some 0)
    (h1 : t.waitTimer ≠ some 1) (e : Bool) :
    (if (arrivalMeetsExpiry latches t && e) = true then takeArrivals latches k (expireWait k (ticked t))
      else expireWait k (takeArrivals latches k (ticked t))) =
    { waitStepped latches (!e) k t with holdoffTimer := tickTimer t.holdoffTimer } := by
  have hm : arrivalMeetsExpiry latches t = false := by
    unfold arrivalMeetsExpiry
    split
    · rename_i hx; exact absurd hx h1
    · rfl
  have htick : tickTimer t.waitTimer ≠ some 0 := by
    rcases ht : t.waitTimer with _ | _ | _ | m <;> simp_all [tickTimer]
  rw [hm, Bool.false_and, if_neg (by simp)]
  cases hl : getLine latches l with
  | false =>
    rw [takeArrivals_of_clear (t := ticked t) hw hl, expireWait_of_ne (t := ticked t) (.inl htick)]
    simp only [waitStepped, hw, hl, h1, ticked, tickTimer_eq_map, false_and, Bool.false_eq_true, if_false]
  | true =>
    rw [takeArrivals_of_latched (t := ticked t) hw hl]
    by_cases hn : t.tally + 1 = n
    · rw [takeArrival_of_eq (t := ticked t) hw hn hs, expireWait_of_ne (.inr rfl)]
      simp only [waitStepped, hw, hl, h1, hn, ticked, tickTimer_eq_map, false_and, and_self, if_true, if_false]
      rfl
    · rw [takeArrival_of_ne (t := ticked t) hw hn,
        expireWait_of_ne (t := { ticked t with tally := (ticked t).tally + 1 }) (.inl htick)]
      simp only [waitStepped, hw, hl, h1, hn, ticked, tickTimer_eq_map, false_and, and_false, if_true, if_false]

/-- The step brings the wait timer to 0 and no arrival ends the WAIT first. -/
theorem waitStepped_of_expiry {a : Bool} (hw : t.wait = .counting l n b) (h1 : t.waitTimer = some 1)
    (hr : ¬((getLine latches l = true ∧ t.tally + 1 = n) ∧ a = true)) {m : Nat}
    (hm : m = if getLine latches l = true ∧ a = true then t.tally + 1 else t.tally) :
    waitStepped latches a k t =
      if b then enterHalted { t with wait := .stopped, waitTimer := none, tally := m } .timeout
        (tenantCompletion k t .timeout .none true m 0 0 (windowCursor t) 0)
      else enterPosting { t with wait := .stopped, waitTimer := none, tally := m }
        (tenantCompletion k t .timeout .none false m 0 0 (windowCursor t) 0) := by
  subst hm
  unfold waitStepped
  simp only [hw, h1, hr, not_false_eq_true, and_self, if_true]
  cases b <;> rfl

/-- The expiry of a ticked tenant, with this tally. -/
theorem expireWait_ticked (hw : t.wait = .counting l n b) (hs : t.state = .waiting) (h1 : t.waitTimer = some 1)
    (m : Nat) :
    expireWait k { ticked t with tally := m } =
      { (if b then enterHalted { t with wait := .stopped, waitTimer := none, tally := m } .timeout
            (tenantCompletion k t .timeout .none true m 0 0 (windowCursor t) 0)
          else enterPosting { t with wait := .stopped, waitTimer := none, tally := m }
            (tenantCompletion k t .timeout .none false m 0 0 (windowCursor t) 0)) with
        holdoffTimer := tickTimer t.holdoffTimer } := by
  have htick : ({ ticked t with tally := m } : Tenant).waitTimer = some 0 := by simp [ticked, h1, tickTimer]
  rw [expireWait_waiting (t := { ticked t with tally := m }) hw htick hs]
  cases b <;> rfl

/-- The step brings the wait timer to 0. -/
theorem waits_of_expiry (hw : t.wait = .counting l n b) (hs : t.state = .waiting) (h1 : t.waitTimer = some 1)
    (e : Bool) :
    (if (arrivalMeetsExpiry latches t && e) = true then takeArrivals latches k (expireWait k (ticked t))
      else expireWait k (takeArrivals latches k (ticked t))) =
    { waitStepped latches (!e) k t with holdoffTimer := tickTimer t.holdoffTimer } := by
  have hm : arrivalMeetsExpiry latches t = getLine latches l := by simp [arrivalMeetsExpiry, hw, h1]
  have hself : ticked t = { ticked t with tally := t.tally } := rfl
  rw [hm]
  cases hl : getLine latches l with
  | false =>
    rw [Bool.false_and, if_neg (by simp), takeArrivals_of_clear (t := ticked t) hw hl, hself,
      expireWait_ticked hw hs h1, waitStepped_of_expiry hw h1 (by simp [hl]) (m := t.tally) (by simp [hl])]
  | true =>
    cases e with
    | true =>
      have hstop : (expireWait k (ticked t)).wait = .stopped :=
        expireWait_wait (t := ticked t) hw (by simp [ticked, h1, tickTimer]) hs
      rw [Bool.true_and, if_pos rfl, takeArrivals_of_stopped hstop, hself, expireWait_ticked hw hs h1,
        waitStepped_of_expiry hw h1 (by simp) (m := t.tally) (by simp)]
    | false =>
      rw [Bool.and_false, if_neg (by simp), takeArrivals_of_latched (t := ticked t) hw hl]
      by_cases hn : t.tally + 1 = n
      · rw [takeArrival_of_eq (t := ticked t) hw hn hs, expireWait_of_ne (.inr rfl)]
        simp only [waitStepped, hw, hl, h1, hn, ticked, tickTimer, Bool.not_false, and_self, not_true_eq_false, and_false,
          if_true, if_false]
        rfl
      · rw [takeArrival_of_ne (t := ticked t) hw hn]
        have := expireWait_ticked (k := k) hw hs h1 (t.tally + 1)
        rw [waitStepped_of_expiry hw h1 (by simp [hn]) (m := t.tally + 1) (by simp [hl])]
        exact this

end

/-- The waits of a step: `waitStepped` in place of the two orders of arrivals and expiry. -/
theorem waits_eq (h : WaitRow t) (e : Bool) :
    (if (arrivalMeetsExpiry latches t && e) = true then takeArrivals latches k (expireWait k (ticked t))
      else expireWait k (takeArrivals latches k (ticked t))) =
    { waitStepped latches (!e) k t with holdoffTimer := tickTimer t.holdoffTimer } := by
  obtain ⟨hwait, _, htimer, hne, _⟩ := h
  cases hw : t.wait with
  | stopped =>
    refine waits_of_stopped hw ?_ e
    cases ht : t.waitTimer with
    | none => rfl
    | some n => exact absurd hw (htimer (by simp [ht]))
  | counting l n b =>
    have hs : t.state = .waiting := hwait.1 (by simp [hw])
    by_cases h1 : t.waitTimer = some 1
    · exact waits_of_expiry hw hs h1 e
    · exact waits_of_no_expiry hw hs hne h1 e

theorem waitStepped_holdoffExpired (a : Bool) (t : Tenant) :
    (waitStepped latches a k t).holdoffExpired = t.holdoffExpired := by
  unfold waitStepped
  split
  · rfl
  · simp only
    split_ifs <;> rfl

/-- One tenant at a timebase step, as the rules state it. -/
theorem timebaseTenant_eq (h : WaitRow t) (e : Bool) :
    timebaseTenant latches (arrivalMeetsExpiry latches t && e) k t =
      { waitStepped latches (!e) k t with
        holdoffTimer := if t.holdoffTimer = some 1 then none else t.holdoffTimer.map fun n => n - 1,
        holdoffExpired := if t.holdoffTimer = some 1 then true else t.holdoffExpired } := by
  have hdef : timebaseTenant latches (arrivalMeetsExpiry latches t && e) k t =
      expireHoldoff (if (arrivalMeetsExpiry latches t && e) = true then takeArrivals latches k (expireWait k (ticked t))
        else expireWait k (takeArrivals latches k (ticked t))) := rfl
  rw [hdef, waits_eq h, expireHoldoff_eq (h := t.holdoffTimer) rfl h.2.2.2.2]
  simp only [waitStepped_holdoffExpired]

end
end Sys2Proof.Machine
end

section
set_option Elab.async false
/-!
# Timers, grants and ends of runs keep what is sound of a tenant
-/

namespace Sys2Proof.Machine

section
variable {t : Tenant} {k : TenantId}

/-! ## The timebase step -/

/-- A WAITING tenant holds its record, once its WAIT is put aside. -/
theorem TableRows.hasRecord_of_waiting (h : TableRows t) (hs : t.state = .waiting) (m : Nat) :
    HasRecord { t with wait := .stopped, waitTimer := none, tally := m } := by
  have hr := h.recovery_eq_none (by simp [hs])
  exact ⟨by rw [h.current, hs]; rfl, hr, h.refetchWaiting_eq_false (by simp [hr]),
    h.liveRefetch_eq_false (by simp [hr]), rfl, rfl, h.holdoffTimer_ne⟩

/-- A wait timer that does not expire goes on counting. -/
theorem TenantOk.tenantOk_waitGoesOn (h : TenantOk t) (hs : t.state = .waiting) (h1 : t.waitTimer ≠ some 1) (m : Nat) :
    TenantOk { t with waitTimer := t.waitTimer.map fun n => n - 1, tally := m } := by
  obtain ⟨r1, r2, r3, r4, r5, r6, ⟨w1, w2, _, w4, w5⟩, r8, r9, r10, r11⟩ := h.table
  refine ⟨⟨r1, r2, r3, r4, r5, r6, ⟨w1, w2, fun _ => w1.2 hs, ?_, w5⟩, r8, r9, r10, r11⟩,
    fun hd => by simp [hs] at hd, h.rings, h.queue, h.windows, h.stopped, h.segment, h.mapFits⟩
  rcases ht : t.waitTimer with _ | _ | _ | n <;> simp_all

theorem TenantOk.quiet_waitStepped (h : TenantOk t) (latches : Lines) (a : Bool) :
    Quiet t (waitStepped latches a k t) := by
  cases hw : t.wait with
  | stopped =>
    have : waitStepped latches a k t = t := by simp [waitStepped, hw]
    rw [this]
    exact h.quiet_refl
  | counting l n b =>
    have hs : t.state = .waiting := h.rows.wait.1.1 (by simp [hw])
    have hrec := h.rows.hasRecord_of_waiting hs
    have hb := h.body (attached_of_state hs)
    have hh := h.rows.haltReason_eq_none (by simp [hs])
    have hg := h.rows.progress_eq_none (by rw [hs]; rfl)
    have hcur := h.rows.wait.2.1 (.inl hs)
    have hruns : ¬Runs t := not_runs_of_state hs
    by_cases hexp : t.waitTimer = some 1 ∧ ¬((getLine latches l = true ∧ t.tally + 1 = n) ∧ a = true)
    · obtain ⟨h1, hr⟩ := hexp
      rw [waitStepped_of_expiry hw h1 hr rfl]
      split
      · exact ⟨(hrec _).tenantOk_enterHalted (t := { t with wait := .stopped, waitTimer := none, tally := _ }) hb rfl rfl
          hg fun _ => hcur, .of_not_runs hruns (by simp [Runs])⟩
      · exact ⟨(hrec _).tenantOk_enterPosting (t := { t with wait := .stopped, waitTimer := none, tally := _ }) hb hh rfl,
          .of_not_runs hruns (by simp [Runs])⟩
    · by_cases hreach : getLine latches l = true ∧ t.tally + 1 = n
      · have he : waitStepped latches a k t =
            enterPosting { t with wait := .stopped, waitTimer := none, tally := n }
              (tenantCompletion k t .ok .none false n 0 0 (windowCursor t)
                (BitVec.ofNat 32 ((t.waitTimer.map fun n => n - 1).getD 0))) := by
          simp only [waitStepped, hw]
          rw [if_neg hexp, if_pos hreach]
          rfl
        rw [he]
        exact ⟨(hrec n).tenantOk_enterPosting (t := { t with wait := .stopped, waitTimer := none, tally := n }) hb hh rfl,
          .of_not_runs hruns (by simp [Runs])⟩
      · have he : waitStepped latches a k t =
            { t with waitTimer := t.waitTimer.map fun n => n - 1,
                     tally := if getLine latches l = true then t.tally + 1 else t.tally } := by
          simp only [waitStepped, hw]
          rw [if_neg hexp, if_neg hreach]
        rw [he]
        have h1 : t.waitTimer ≠ some 1 := fun h1 => hexp ⟨h1, fun hr => hreach hr.1⟩
        exact TenantOk.quiet (h.tenantOk_waitGoesOn hs h1 _) rfl rfl rfl rfl

/-- A holdoff timer loaded, stopped or counted down. -/
theorem TenantOk.quiet_holdoff {timer : Option Nat} {b : Bool} (h : TenantOk t) (hd : t.state ≠ .detached)
    (ht : timer ≠ some 0) : Quiet t { t with holdoffTimer := timer, holdoffExpired := b } := by
  obtain ⟨h1, h2, h3, h4, h5, h6, ⟨w1, w2, w3, w4, _⟩, h8⟩ := h.table
  exact TenantOk.quiet ⟨⟨h1, h2, h3, h4, h5, h6, ⟨w1, w2, w3, w4, ht⟩, h8⟩, fun hs => absurd hs hd, h.rings, h.queue,
    h.windows, h.stopped, h.segment, h.mapFits⟩ rfl rfl rfl rfl

theorem TenantOk.quiet_timebaseTenant (h : TenantOk t) (latches : Lines) (e : Bool) :
    Quiet t (timebaseTenant latches (arrivalMeetsExpiry latches t && e) k t) := by
  rw [timebaseTenant_eq h.rows.wait]
  by_cases hd : t.state = .detached
  · have hw : waitStepped latches (!e) k t = t := by
      simp [waitStepped, h.rows.wait_eq_stopped (by simp [hd])]
    have ht : t.holdoffTimer = none := by rw [h.detachedRow hd]; rfl
    have : { t with holdoffTimer := if t.holdoffTimer = some 1 then none else t.holdoffTimer.map fun n => n - 1,
                    holdoffExpired := if t.holdoffTimer = some 1 then true else t.holdoffExpired } = t := by
      simp only [ht, Option.map_none, reduceCtorEq, if_false]
      rw [← ht]
    rw [hw, this]
    exact h.quiet_refl
  · have hstep := h.quiet_waitStepped (k := k) latches (!e)
    refine hstep.trans (hstep.ok.quiet_holdoff ?_ ?_)
    · intro hd'
      cases hw : t.wait with
      | stopped => simp [waitStepped, hw, hd] at hd'
      | counting l n b =>
        have hs : t.state = .waiting := h.rows.wait.1.1 (by simp [hw])
        unfold waitStepped at hd'
        simp only [hw] at hd'
        split_ifs at hd' <;> simp [hs] at hd'
    · have := h.rows.holdoffTimer_ne
      rcases ht : t.holdoffTimer with _ | _ | _ | n <;> simp_all

/-- A sound tenant's WAIT is begun as soon as it is current. -/
theorem TenantOk.beginWait_eq (h : TenantOk t) : beginWait k t = t := by
  unfold beginWait
  split
  · rename_i hs hw _
    exact absurd hw (h.rows.wait.1.2 hs)
  · rfl

/-! ## Grants and the ends of runs -/

/-- A READY tenant is granted (R81). -/
theorem TenantOk.tenantOk_granted (h : TenantOk t) (hs : t.state = .ready) : TenantOk (grantedTenant t) := by
  have hrec := h.rows.hasRecord (by rw [hs]; rfl) (by simp [hs]) (h.rows.recovery_eq_none (by simp [hs]))
  have hr : HasRecord (grantedTenant t) := hrec
  have hp : (grantedTenant t).cu.pending = none := h.rows.pending_eq_none (by simp [hs]) (by simp [hs])
  have hh : (grantedTenant t).haltReason = none := h.rows.haltReason_eq_none (by simp [hs])
  refine .of_body (h.body (attached_of_state hs)) (hr.rows rfl (by simp [grantedTenant]) ?_ ?_ (by simp [grantedTenant])
    ?_ ?_ ?_) (by simp [grantedTenant]) fun g hg hst => by rcases hst with hst | hst <;> simp [grantedTenant] at hst
  · rw [hh]; rfl
  · simp [hp]
  · intro _; exact ⟨rfl, by simp [hh], by simp [hp]⟩
  · simp [hp, hh]
  · simp [hp]

/-- What a RUNNING tenant holds. -/
theorem TenantOk.of_running (h : TenantOk t) (hs : t.state = .running) :
    HasRecord t ∧ BodyOk t ∧ t.haltReason = none ∧ t.cu.pending = none :=
  ⟨h.rows.hasRecord (by rw [hs]; rfl) (by simp [hs]) (h.rows.recovery_eq_none (by simp [hs])),
   h.body (attached_of_state hs), h.rows.haltReason_eq_none (by simp [hs]),
   h.rows.pending_eq_none (by simp [hs]) (by simp [hs])⟩

/-- A run ends in POSTING (R10). -/
theorem TenantOk.tenantOk_endRun {c : Completion} (h : TenantOk t) (hs : t.state = .running) (hc : c.interim = false) :
    TenantOk (enterPosting t c) := by
  obtain ⟨hr, hb, hh, _⟩ := h.of_running hs
  exact hr.tenantOk_enterPosting hb hh hc

/-- The context table does not look at the acknowledgement report. -/
theorem TenantOk.tenantOk_ackReport (h : TenantOk t) (hd : t.state ≠ .detached) (r : Option AckReport) :
    TenantOk { t with ackReport := r } :=
  ⟨h.table, fun hs => absurd hs hd, h.rings, h.queue, h.windows, h.stopped, h.segment, h.mapFits⟩

/-- The first grant's checks refuse the record (R59). -/
theorem TenantOk.tenantOk_refuse (h : TenantOk t) (hs : t.state = .running) (hg : t.progress = none) (reason : Reason) :
    TenantOk (refuseRecord k t reason) := by
  obtain ⟨hr, hb, hh, _⟩ := h.of_running hs
  exact hr.tenantOk_refuseRecord hb hh hg k reason

/-- A window whose cursor stays within the area keeps its row. -/
theorem WindowRow.with_window {w w' : Window} (h : WindowRow t) (hw : t.window = some w) (hslot : w'.slot = w.slot)
    (hx0 : w'.x0 = w.x0) (hx1 : w'.x1 = w.x1) (hy0 : w'.y0 = w.y0) (hy1 : w'.y1 = w.y1)
    (hc : w'.cursor ≤ windowArea w) : WindowRow { t with window := some w' } := by
  refine ⟨h.1, fun v hv => ?_⟩
  obtain rfl : w' = v := by simpa using hv
  obtain ⟨f, hf, h1, h2, h3, h4, _⟩ := h.2 w hw
  refine ⟨f, by rw [hslot]; exact hf, by omega, by omega, by omega, by omega, ?_⟩
  have : windowArea w' = windowArea w := by simp [windowArea, hx0, hx1, hy0, hy1]
  rw [this]
  exact hc

/-- A RUNNING or DETACHING tenant with another window or other surfaces that have their row. -/
theorem TenantOk.tenantOk_tables {w : Option Window} {f : Slots} (h : TenantOk t) (hs : Runs t)
    (hw : WindowRow { t with surfaces := f, window := w }) : TenantOk { t with surfaces := f, window := w } :=
  ⟨h.table, fun hd => by rcases hs with hs | hs <;> simp [hs] at hd, h.rings, h.queue, hw,
    fun g _ hst => by rcases hs with hs | hs <;> simp [hs] at hst, h.segment, h.mapFits⟩

/-- A run ends preempted, ready to continue (R95). -/
theorem TenantOk.tenantOk_preempt {g : Progress} (h : TenantOk t) (hs : t.state = .running)
    (hg : StoppedRow { t with state := .ready, progress := some g }) :
    TenantOk { t with state := .ready, progress := some g } := by
  obtain ⟨hr, hb, hh, hp⟩ := h.of_running hs
  exact .of_body hb (HasRecord.rows (t := { t with state := .ready, progress := some g }) hr rfl (by simp) (by simp [hh])
    (by simp [hp]) (by simp) (fun _ => ⟨rfl, by simp [hh], by simp [hp]⟩) (by simp [hh, hp]) (by simp [hp])) (by simp) hg

/-- A run ends halted at a faulting element (R93). -/
theorem TenantOk.tenantOk_halt {g : Progress} {c : Completion} {r : HaltReason} (h : TenantOk t)
    (hs : t.state = .running) (hc : c.interim = true) (hf : isFaultStatus c.status = true)
    (hr : haltReasonOf c.status = some r) (hg : StoppedRow { enterHalted t r c with progress := some g }) :
    TenantOk { enterHalted t r c with progress := some g } := by
  obtain ⟨hrec, hb, hh, hp⟩ := h.of_running hs
  have hfr := isFaultHalt_of_status hr hf
  have hnt : r ≠ .timeout := by rintro rfl; simp [isFaultHalt] at hfr
  have hst : c.status ≠ .timeout := by rintro hst; simp [hst, isFaultStatus] at hf
  exact .of_body hb (HasRecord.rows (t := { enterHalted t r c with progress := some g }) hrec rfl (by simp) rfl (by simp)
    (by simp) (fun _ => ⟨rfl, by simp [hfr], by simp [hc, hf]⟩) (by simp [hnt, hst]) (by simp [hr])) (by simp) hg

/-- DETACH takes a RUNNING tenant (R20, R169). -/
theorem TenantOk.tenantOk_beginDetaching (h : TenantOk t) (hs : t.state = .running) : TenantOk (beginDetaching t) := by
  obtain ⟨⟨hcur, hrec, _, _, hwait, htimer, _⟩, _, hh, _⟩ := h.of_running hs
  have hmark : ∀ r, markRead t.chan.inFlight = some r → r.discard = true := by
    intro r hr
    cases hi : t.chan.inFlight <;> simp [markRead, hi] at hr
    rw [← hr]
  have hlive : liveRefetch (beginDetaching t) = false := by
    simp only [liveRefetch, beginDetaching]
    cases hi : markRead t.chan.inFlight with
    | none => rfl
    | some r => simp [hmark r hi]
  have hnormal : normalInFlight (beginDetaching t) = false := by
    simp only [normalInFlight, beginDetaching]
    cases hi : markRead t.chan.inFlight with
    | none => rfl
    | some r => simp [hmark r hi]
  have hr : HasRecord (beginDetaching t) := ⟨hcur, hrec, rfl, hlive, hwait, htimer, by simp [beginDetaching]⟩
  have hh' : (beginDetaching t).haltReason = none := hh
  have hp' : (beginDetaching t).cu.pending = none := rfl
  refine ⟨tenantTable_iff.2 (hr.rows rfl (by simp [beginDetaching]) ?_ (by simp [hp']) (by simp [beginDetaching]) ?_
    (by simp [hh', hp']) (by simp [hp'])), fun hd => by simp [beginDetaching] at hd,
    fun ha => by simp [attached, beginDetaching] at ha, ?_, h.windows,
    fun g hg hst => by rcases hst with hst | hst <;> simp [beginDetaching] at hst, h.segment, h.mapFits⟩
  · rw [hh']; rfl
  · intro _; exact ⟨rfl, by simp [hh'], by simp [hp']⟩
  · rw [hnormal]; simp [beginDetaching]

end
end Sys2Proof.Machine
end

section
set_option Elab.async false
/-!
# Plans, cursors and counts of a granted record (R47 to R49, R61)

The window cursor of a PUT or GET stands at `cursorAdvanced p n` after `n` acknowledged in-window elements. Here: what a
plan takes from its tenant, one step of that cursor, and how many in-window elements a prefix holds.
-/

namespace Sys2Proof.Machine

/-! ## What a plan takes from its tenant -/

/-- The overrun policies a plan of each kind has. -/
def PolicyFits (p : Plan) : Prop :=
  match p.kind with
  | .put => p.policy = .clip ∨ p.policy = .wrap
  | .get => p.policy = .hold ∨ p.policy = .zero ∨ p.policy = .wrap
  | .copy | .fill => p.policy = .none

section
variable {t : Tenant} {r : Record} {p : Plan} {cs : Nat}

theorem windowSurface_eq_some_iff {w : Window} {f : Surface} :
    windowSurface t = some (w, f) ↔ t.window = some w ∧ slotGet t.surfaces w.slot = some f := by
  unfold windowSurface
  rcases t.window with _ | v
  · simp
  · simp only [Option.map_eq_some_iff, Prod.mk.injEq, Option.some.injEq]
    constructor
    · rintro ⟨f', hf, rfl, rfl⟩; exact ⟨rfl, hf⟩
    · rintro ⟨rfl, hf⟩; exact ⟨f, hf, rfl, rfl⟩

/-- The plans `planOf` makes, by the record's kind. -/
theorem planOf_cases (h : planOf t r cs = some p) :
    (∃ w f, t.window = some w ∧ slotGet t.surfaces w.slot = some f ∧
      ((kindOf r = some .put ∧ p = planPut r w f cs) ∨ (kindOf r = some .get ∧ p = planGet r w f cs))) ∨
    (∃ src dst o, kindOf r = some .copy ∧ p = planCopy r src dst o) ∨
    ∃ f, kindOf r = some .fill ∧ p = planFill r f := by
  unfold planOf at h
  split at h
  · rename_i hk
    obtain ⟨⟨w, f⟩, hw, rfl⟩ := Option.map_eq_some_iff.1 h
    obtain ⟨h1, h2⟩ := windowSurface_eq_some_iff.1 hw
    exact .inl ⟨w, f, h1, h2, .inl ⟨hk, rfl⟩⟩
  · rename_i hk
    obtain ⟨⟨w, f⟩, hw, rfl⟩ := Option.map_eq_some_iff.1 h
    obtain ⟨h1, h2⟩ := windowSurface_eq_some_iff.1 hw
    exact .inl ⟨w, f, h1, h2, .inr ⟨hk, rfl⟩⟩
  · rename_i hk
    split at h
    · split at h
      · exact .inr (.inl ⟨_, _, _, hk, (Option.some.inj h).symm⟩)
      · cases h
    · cases h
  · rename_i hk
    split at h
    · obtain ⟨f, _, rfl⟩ := Option.map_eq_some_iff.1 h
      exact .inr (.inr ⟨f, hk, rfl⟩)
    · cases h
  · cases h

/-- A plan's policy is one of its kind's. -/
theorem policyFits_of_planOf (h : planOf t r cs = some p) : PolicyFits p := by
  rcases planOf_cases h with ⟨w, f, _, _, ⟨_, rfl⟩ | ⟨_, rfl⟩⟩ | ⟨src, dst, o, _, rfl⟩ | ⟨f, _, rfl⟩
  · simp only [PolicyFits, planPut]
    cases w.writePolicy <;> simp
  · simp only [PolicyFits, planGet]
    cases w.readPolicy <;> simp
  · rfl
  · rfl

/-- The plan of a PUT or GET keeps the cursor at start and the area of the tenant's window. -/
theorem planOf_window (h : planOf t r cs = some p) (hk : p.kind = .put ∨ p.kind = .get) :
    p.cs = cs ∧ ∃ w, t.window = some w ∧ p.area = windowArea w := by
  rcases planOf_cases h with ⟨w, f, hw, _, ⟨_, rfl⟩ | ⟨_, rfl⟩⟩ | ⟨src, dst, o, _, rfl⟩ | ⟨f, _, rfl⟩
  · exact ⟨rfl, w, hw, rfl⟩
  · exact ⟨rfl, w, hw, rfl⟩
  · simp [planCopy] at hk
  · simp [planFill] at hk

/-- The plan of a COPY or FILL has cursor at start 0. -/
theorem planOf_cs_of_rect (h : planOf t r cs = some p) (hk : p.kind = .copy ∨ p.kind = .fill) : p.cs = 0 := by
  rcases planOf_cases h with ⟨w, f, hw, _, ⟨_, rfl⟩ | ⟨_, rfl⟩⟩ | ⟨src, dst, o, _, rfl⟩ | ⟨f, _, rfl⟩
  · simp [planPut] at hk
  · simp [planGet] at hk
  · rfl
  · rfl

/-- A window with the same rectangle, policies and order, whatever its cursor and held value. -/
def SameFrame (w w' : Window) : Prop := { w' with cursor := w.cursor, held := w.held } = w

/-- A plan does not look at the cursor or the held value of the window. -/
theorem planOf_congr {w w' : Option Window} (hw : t.window = w)
    (hf : ∀ v, w = some v → ∃ v', w' = some v' ∧ SameFrame v v') (hn : w = none → w' = none) :
    planOf { t with window := w' } r cs = planOf t r cs := by
  subst hw
  have hput : ∀ (v v' : Window) (f : Surface), SameFrame v v' → planPut r v' f cs = planPut r v f cs := by
    intro v v' f h; rw [← h]; rfl
  have hget : ∀ (v v' : Window) (f : Surface), SameFrame v v' → planGet r v' f cs = planGet r v f cs := by
    intro v v' f h; rw [← h]; rfl
  have hws : ∀ g : Window → Surface → Plan, (∀ v v' f, SameFrame v v' → g v' f = g v f) →
      (windowSurface { t with window := w' }).map (fun ws => g ws.1 ws.2) =
        (windowSurface t).map fun ws => g ws.1 ws.2 := by
    intro g hg
    rcases hv : t.window with _ | v
    · simp [windowSurface, hv, hn hv]
    · obtain ⟨v', rfl, hs⟩ := hf v hv
      have hslot : v'.slot = v.slot := by rw [← hs]
      simp only [windowSurface, hv, hslot, Option.map_map]
      congr 1
      funext f
      exact hg v v' f hs
  unfold planOf
  split
  · exact hws _ hput
  · exact hws _ hget
  · rfl
  · rfl
  · rfl

end

/-! ## The cursor (R49) -/

section
variable {p : Plan}

theorem cursorAdvanced_zero (p : Plan) : cursorAdvanced p 0 = p.cs := by
  unfold cursorAdvanced
  split <;> simp

/-- The cursor under WRAP, whatever the count. -/
theorem cursorAdvanced_mod (hp : p.policy = .wrap) (n : Nat) : cursorAdvanced p n % p.area = (p.cs + n) % p.area := by
  unfold cursorAdvanced
  rw [hp]
  simp only
  split
  · rename_i hn; rw [hn, Nat.add_zero]
  · exact Nat.mod_mod _ _

/-- The cursor never passes the area. -/
theorem cursorAdvanced_le (ha : 0 < p.area) (hcs : p.cs ≤ p.area) (hn : p.policy ≠ .none) (n : Nat) :
    cursorAdvanced p n ≤ p.area := by
  have hcount : ∀ m, p.cs + min n (min m (p.area - p.cs)) ≤ p.area := fun m => by omega
  unfold cursorAdvanced
  cases hp : p.policy <;> simp only [inWindowCount, hp]
  case none => exact absurd hp hn
  case wrap =>
    split
    · exact hcs
    · exact (Nat.mod_lt _ ha).le
  all_goals exact hcount _

/-- An acknowledged in-window element steps the cursor. -/
theorem cursorStep_cursorAdvanced (ha : 0 < p.area) (n : Nat)
    (hn : p.policy ≠ .wrap → n < inWindowCount p) :
    cursorStep (p.policy == .wrap) p.area (cursorAdvanced p n) = cursorAdvanced p (n + 1) := by
  by_cases hp : p.policy = .wrap
  · have hstep : ∀ c, cursorStep true p.area c = (c + 1) % p.area := by
      intro c
      simp only [cursorStep, if_true]
      have hlt := Nat.mod_lt c ha
      rw [← Nat.mod_add_mod]
      split
      · rename_i he; rw [he, Nat.mod_self]
      · exact (Nat.mod_eq_of_lt (by omega)).symm
    have hadv : cursorAdvanced p (n + 1) = (p.cs + (n + 1)) % p.area := by simp [cursorAdvanced, hp]
    have hself : (p.policy == Overrun.wrap) = true := by simp [hp]
    rw [hself, hstep, hadv, Nat.add_mod, cursorAdvanced_mod hp, ← Nat.add_mod, Nat.add_assoc]
  · have hlt := hn hp
    have hadv : ∀ m, cursorAdvanced p m = p.cs + min m (inWindowCount p) := by
      intro m; unfold cursorAdvanced; cases hq : p.policy <;> simp_all
    have hself : (p.policy == Overrun.wrap) = false := by simp [hp]
    rw [hself, hadv, hadv]
    simp only [cursorStep, Bool.false_eq_true, if_false]
    omega

/-! ## Counting in-window elements -/

/-- The in-window elements of a record under CLIP, HOLD or ZERO are its first ones. -/
theorem inWindow_iff_lt (hw : p.policy ≠ .wrap) (hn : p.policy ≠ .none) {j : Nat} (hj : j < p.count) :
    inWindow p j = true ↔ j < inWindowCount p := by
  unfold inWindow inWindowCount
  cases hp : p.policy <;> simp_all
  all_goals omega

theorem inWindow_wrap (hw : p.policy = .wrap) (j : Nat) : inWindow p j = true := by simp [inWindow, hw]

/-- An in-window element outside a list of distinct elements leaves the list short of all in-window ones. -/
theorem countP_inWindow_lt (hw : p.policy ≠ .wrap) (hn : p.policy ≠ .none) {l : List Nat} (hd : l.Nodup)
    (hl : ∀ i ∈ l, i < p.count) {j : Nat} (hj : j < p.count) (hjl : j ∉ l) (hin : inWindow p j = true) :
    l.countP (inWindow p) < inWindowCount p := by
  have hnodup : (j :: l.filter (inWindow p)).Nodup :=
    List.nodup_cons.2 ⟨fun h => hjl (List.mem_filter.1 h).1, hd.filter _⟩
  have hsub : j :: l.filter (inWindow p) ⊆ List.range (inWindowCount p) := by
    intro i hi
    rw [List.mem_range]
    rcases List.mem_cons.1 hi with rfl | hi
    · exact (inWindow_iff_lt hw hn hj).1 hin
    · obtain ⟨h1, h2⟩ := List.mem_filter.1 hi
      exact (inWindow_iff_lt hw hn (hl i h1)).1 h2
  have hlen := (List.subperm_of_subset hnodup hsub).length_le
  rw [List.length_cons, List.length_range, ← List.countP_eq_length_filter] at hlen
  omega

/-- The in-window elements among the first `n`. -/
theorem countP_range_inWindow (hw : p.policy ≠ .wrap) (hn : p.policy ≠ .none) {n : Nat} (h : n ≤ p.count) :
    (List.range n).countP (inWindow p) = min n (inWindowCount p) := by
  induction n with
  | zero => simp
  | succ n ih =>
    have hlt : n < p.count := h
    rw [List.range_succ, List.countP_append, ih (by omega)]
    by_cases hin : inWindow p n = true
    · have := (inWindow_iff_lt hw hn hlt).1 hin
      simp only [List.countP_cons, List.countP_nil, hin, if_true]
      omega
    · have : ¬ n < inWindowCount p := fun hx => hin ((inWindow_iff_lt hw hn hlt).2 hx)
      simp only [List.countP_cons, List.countP_nil, hin]
      simp only [Bool.false_eq_true, if_false]
      omega

/-- The cursor counts the in-window elements of a prefix as it counts the prefix. -/
theorem cursorAdvanced_countP_range (hn : p.policy ≠ .none) {n : Nat} (h : n ≤ p.count) :
    cursorAdvanced p ((List.range n).countP (inWindow p)) = cursorAdvanced p n := by
  by_cases hw : p.policy = .wrap
  · rw [List.countP_eq_length.2 fun i _ => inWindow_wrap hw i, List.length_range]
  · rw [countP_range_inWindow hw hn h]
    have hadv : ∀ m, cursorAdvanced p m = p.cs + min m (inWindowCount p) := by
      intro m; unfold cursorAdvanced; cases hq : p.policy <;> simp_all
    rw [hadv, hadv]
    omega

theorem takeUps_le_count (p : Plan) : takeUps p ≤ p.count := by
  unfold takeUps inWindowCount
  cases p.policy <;> simp

end
end Sys2Proof.Machine
end

section
set_option Elab.async false
/-!
# The outstanding set and the acknowledged prefix (section 5.2, R86, R88, R92, R183)

`UnitRows` names the rows of `UnitInv`, `RunRows` those of `RunInv` for the granted tenant and its plan. The lemmas say how
each change of the outstanding set, of the prefix and of the phase keeps them.
-/

namespace Sys2Proof.Machine

/-- The rows of `UnitInv`. -/
structure UnitRows (u : TransferUnit) : Prop where
  wraps : u.wraps ≤ Config.wrapsMax
  done : u.done ≤ u.nextOrd
  endedRise : u.ended.Pairwise (· < ·)
  ended : ∀ o ∈ u.ended, u.done < o ∧ o < u.nextOrd
  rise : u.outstanding.Pairwise fun a b => a.ord < b.ord
  elems : ∀ e ∈ u.outstanding, u.done ≤ e.ord ∧ e.ord ∉ u.ended ∧ (e.fill = false → e.ord < u.nextOrd) ∧
    (e.fill = true → e.ord = u.nextOrd)
  halted : u.phase = .draining .halt ↔ u.faulting.isSome = true
  faulted : ∀ f, u.faulting = some f → ∀ e ∈ u.outstanding,
    e.ord ≠ f.ord ∧ (f.ord < e.ord → inFlightStage e.stage = true)
  aborted : u.phase = .draining .abort → ∀ e ∈ u.outstanding, inFlightStage e.stage = true

theorem unitInv_iff {u : TransferUnit} : UnitInv u ↔ UnitRows u :=
  ⟨fun ⟨h1, h2, h3, h4, h5, h6, h7, h8, h9⟩ => ⟨h1, h2, h3, h4, h5, h6, h7, h8, h9⟩,
   fun ⟨h1, h2, h3, h4, h5, h6, h7, h8, h9⟩ => ⟨h1, h2, h3, h4, h5, h6, h7, h8, h9⟩⟩

/-- The ordinals that have ended: the acknowledged prefix and those above it. -/
def endedOrds (u : TransferUnit) : List Nat := List.range u.done ++ u.ended

/-- What `RunInv` says of the granted tenant `t` and its plan; while `live`, no ordinal taken up is lost. -/
structure RunRows (live : Prop) (t : Tenant) (p : Plan) (u : TransferUnit) : Prop where
  plan : PlanOfTenant t p
  within : u.nextOrd ≤ takeUps p
  faultWithin : ∀ f, u.faulting = some f → f.ord < takeUps p
  fills : ∀ e ∈ u.outstanding, e.fill = true → e.ord < takeUps p ∧ p.kind = .get ∧ p.policy = .hold ∧
    inWindow p e.ord = false ∧ (e.stage = .readHeld ∨ e.stage = .readIssued)
  cursor : CursorAt t p ((endedOrds u).countP (inWindow p))
  covered : live → u.phase ≠ .draining .halt → u.phase ≠ .draining .abort → ∀ o, u.done ≤ o → o < u.nextOrd →
    o ∈ u.ended ∨ ∃ e ∈ u.outstanding, e.fill = false ∧ e.ord = o

theorem runInv_iff {s : State} : RunInv s ↔ ∀ k, s.tu.granted = some k →
    (s.tu.plan = none → s.tu.nextOrd = 0 ∧ s.tu.outstanding = []) ∧
    ∀ p, s.tu.plan = some p → RunRows (s.engine ≠ .resetting) (getTenant s k) p s.tu :=
  ⟨fun h k hk => ⟨(h k hk).1, fun p hp =>
      let ⟨h1, h2, h3, h4, h5, h6⟩ := (h k hk).2 p hp; ⟨h1, h2, h3, h4, h5, h6⟩⟩,
   fun h k hk => ⟨(h k hk).1, fun p hp =>
      let ⟨h1, h2, h3, h4, h5, h6⟩ := (h k hk).2 p hp; ⟨h1, h2, h3, h4, h5, h6⟩⟩⟩

section
variable {u : TransferUnit} {p : Plan} {t : Tenant} {live : Prop}

/-! ## Distinct ordinals -/

/-- No two outstanding elements share an ordinal. -/
theorem UnitRows.elem_ext (h : UnitRows u) {a b : Elem} (ha : a ∈ u.outstanding) (hb : b ∈ u.outstanding)
    (ho : a.ord = b.ord) : a = b := by
  have hd : (u.outstanding.map fun e => e.ord).Nodup := List.pairwise_map.2 (h.rise.imp fun hlt => hlt.ne)
  exact List.inj_on_of_nodup_map hd ha hb ho

theorem endedOrds_nodup (h : UnitRows u) : (endedOrds u).Nodup := by
  refine List.nodup_append.2 ⟨List.nodup_range, h.endedRise.imp fun hlt => hlt.ne, fun a ha b hb => ?_⟩
  have := (h.ended b hb).1
  rw [List.mem_range] at ha
  omega

theorem mem_endedOrds {o : Nat} : o ∈ endedOrds u ↔ o < u.done ∨ o ∈ u.ended := by
  simp [endedOrds]

theorem endedOrds_lt_nextOrd (h : UnitRows u) : ∀ o ∈ endedOrds u, o < u.nextOrd := by
  intro o ho
  rcases mem_endedOrds.1 ho with ho | ho
  · have := h.done; omega
  · exact (h.ended o ho).2

theorem stoppedFor_iff (h : UnitRows u) {ord : Nat} :
    stoppedFor u ord = true ↔ u.phase = .draining .abort ∨ ∃ f, u.faulting = some f ∧ f.ord < ord := by
  have hf : u.faulting.isSome = true → u.phase = .draining .halt := h.halted.2
  unfold stoppedFor
  split
  · rename_i hp; simp [hp]
  · rename_i hp
    simp only [hp, Phase.draining.injEq, reduceCtorEq, false_or]
    split <;> simp_all
  · rename_i h1 h2
    simp only [Bool.false_eq_true, false_iff, not_or, not_exists, not_and]
    exact ⟨h1, fun f hfs => absurd (hf (by simp [hfs])) h2⟩

/-! ## Fewer elements outstanding -/

theorem UnitRows.sublist {out : List Elem} (h : UnitRows u) (hs : out.Sublist u.outstanding) :
    UnitRows { u with outstanding := out } :=
  ⟨h.wraps, h.done, h.endedRise, h.ended, h.rise.sublist hs, fun e he => h.elems e (hs.subset he), h.halted,
   fun f hf e he => h.faulted f hf e (hs.subset he), fun ha e he => h.aborted ha e (hs.subset he)⟩

theorem RunRows.sublist {out : List Elem} (h : RunRows live t p u) (hs : out.Sublist u.outstanding)
    (hc : live → u.phase ≠ .draining .halt → u.phase ≠ .draining .abort →
      ∀ e ∈ u.outstanding, e.fill = false → e ∈ out) : RunRows live t p { u with outstanding := out } :=
  ⟨h.plan, h.within, h.faultWithin, fun e he => h.fills e (hs.subset he), h.cursor, fun hl h1 h2 o ho ho' => by
    rcases h.covered hl h1 h2 o ho ho' with hin | ⟨e, he, hf, hord⟩
    · exact .inl hin
    · exact .inr ⟨e, hc hl h1 h2 e he hf, hf, hord⟩⟩

theorem withoutElem_sublist (out : List Elem) (r : ElemRef) : (withoutElem out r).Sublist out := List.filter_sublist

/-! ## Elements at another stage -/

theorem UnitRows.mapElems {g : Elem → Elem} (h : UnitRows u) (ho : ∀ e ∈ u.outstanding, (g e).ord = e.ord)
    (hf : ∀ e ∈ u.outstanding, (g e).fill = e.fill)
    (hs : ∀ e ∈ u.outstanding, inFlightStage e.stage = true → stoppedFor u e.ord = true →
      inFlightStage (g e).stage = true) : UnitRows { u with outstanding := u.outstanding.map g } := by
  refine ⟨h.wraps, h.done, h.endedRise, h.ended, ?_, ?_, h.halted, ?_, ?_⟩
  · refine List.pairwise_map.2 (h.rise.imp_of_mem fun {a b} ha hb hlt => ?_)
    rw [ho a ha, ho b hb]
    exact hlt
  · simp only [List.forall_mem_map]
    intro e he
    rw [ho e he, hf e he]
    exact h.elems e he
  · simp only [List.forall_mem_map]
    intro f hfs e he
    rw [ho e he]
    obtain ⟨h1, h2⟩ := h.faulted f hfs e he
    exact ⟨h1, fun hlt => hs e he (h2 hlt) ((stoppedFor_iff h).2 (.inr ⟨f, hfs, hlt⟩))⟩
  · simp only [List.forall_mem_map]
    intro ha e he
    exact hs e he (h.aborted ha e he) ((stoppedFor_iff h).2 (.inl ha))

theorem RunRows.mapElems {g : Elem → Elem} (h : RunRows live t p u) (ho : ∀ e ∈ u.outstanding, (g e).ord = e.ord)
    (hf : ∀ e ∈ u.outstanding, (g e).fill = e.fill)
    (hs : ∀ e ∈ u.outstanding, e.fill = true → e.stage = .readHeld ∨ e.stage = .readIssued →
      (g e).stage = .readHeld ∨ (g e).stage = .readIssued) :
    RunRows live t p { u with outstanding := u.outstanding.map g } := by
  refine ⟨h.plan, h.within, h.faultWithin, ?_, h.cursor, fun hl h1 h2 o ho1 ho2 => ?_⟩
  · simp only [List.forall_mem_map]
    intro e he hfill
    rw [hf e he] at hfill
    rw [ho e he]
    obtain ⟨h1, h2, h3, h4, h5⟩ := h.fills e he hfill
    exact ⟨h1, h2, h3, h4, hs e he hfill h5⟩
  · rcases h.covered hl h1 h2 o ho1 ho2 with hin | ⟨e, he, hfill, hord⟩
    · exact .inl hin
    · exact .inr ⟨g e, List.mem_map_of_mem he, by rw [hf e he]; exact hfill, by rw [ho e he]; exact hord⟩

/-! ## A recorded fault (R90 to R92, R183) -/

/-- The faulting element after `f` is found. -/
def lowestFault (u : TransferUnit) (f : Faulting) : Faulting :=
  lowerFault (if u.phase = .draining .halt then u.faulting else none) f

theorem recordFault_of_abort {f : Faulting} (ha : u.phase = .draining .abort) : recordFault u f = u := by
  unfold recordFault; rw [ha]

theorem recordFault_of_not_abort {f : Faulting} (ha : u.phase ≠ .draining .abort) :
    recordFault u f = { u with
      phase := .draining .halt, faulting := some (lowestFault u f),
      outstanding := u.outstanding.filter fun e =>
        decide (e.ord < (lowestFault u f).ord) || inFlightStage e.stage } := by
  unfold recordFault
  split
  · contradiction
  · rfl

/-- The lowest fault is the new one, or the recorded one that lies no higher. -/
theorem lowestFault_cases (u : TransferUnit) (f : Faulting) :
    lowestFault u f = f ∨ (u.faulting = some (lowestFault u f) ∧ (lowestFault u f).ord ≤ f.ord) := by
  unfold lowestFault lowerFault
  split
  · rename_i g hg
    split at hg
    · split
      · exact .inl rfl
      · exact .inr ⟨hg, by omega⟩
    · cases hg
  · exact .inl rfl

theorem UnitRows.recordFault {f : Faulting} (h : UnitRows u) (hf : ∀ e ∈ u.outstanding, e.ord ≠ f.ord) :
    UnitRows (recordFault u f) := by
  by_cases ha : u.phase = .draining .abort
  · rw [recordFault_of_abort ha]; exact h
  · rw [recordFault_of_not_abort ha]
    have hsub : (u.outstanding.filter fun e =>
        decide (e.ord < (lowestFault u f).ord) || inFlightStage e.stage).Sublist u.outstanding := List.filter_sublist
    refine ⟨h.wraps, h.done, h.endedRise, h.ended, h.rise.sublist hsub, fun e he => h.elems e (hsub.subset he),
      by simp, fun g hg e he => ?_, by simp⟩
    obtain rfl : lowestFault u f = g := Option.some.inj hg
    obtain ⟨hmem, hkeep⟩ := List.mem_filter.1 he
    refine ⟨?_, fun hlt => ?_⟩
    · rcases lowestFault_cases u f with hl | ⟨hl, _⟩
      · rw [hl]; exact hf e hmem
      · exact (h.faulted _ hl e hmem).1
    · simp only [Bool.or_eq_true, decide_eq_true_eq] at hkeep
      exact hkeep.resolve_left (by omega)

/-- The ordinals taken up need not be covered any more: the drain is a HALT, or an ABORT as before. -/
theorem RunRows.recordFault {live' : Prop} {f : Faulting} (h : RunRows live t p u) (hf : f.ord < takeUps p) :
    RunRows live' t p (recordFault u f) := by
  by_cases ha : u.phase = .draining .abort
  · rw [recordFault_of_abort ha]
    exact ⟨h.plan, h.within, h.faultWithin, h.fills, h.cursor, fun _ _ hx => absurd ha hx⟩
  · rw [recordFault_of_not_abort ha]
    refine ⟨h.plan, h.within, fun g hg => ?_, fun e he => h.fills e (List.mem_filter.1 he).1, h.cursor,
      fun _ hh => absurd rfl hh⟩
    obtain rfl : lowestFault u f = g := Option.some.inj hg
    rcases lowestFault_cases u f with hl | ⟨hl, _⟩
    · rw [hl]; exact hf
    · exact h.faultWithin _ hl

/-! ## An element taken up -/

/-- No fill read is outstanding. -/
def NoFill (u : TransferUnit) : Prop := ∀ e ∈ u.outstanding, e.fill = false

theorem UnitRows.ord_lt (h : UnitRows u) (hn : NoFill u) : ∀ e ∈ u.outstanding, e.ord < u.nextOrd :=
  fun e he => (h.elems e he).2.2.1 (hn e he)

theorem rise_append {out : List Elem} {n : Nat} {e : Elem} (h : out.Pairwise fun a b => a.ord < b.ord)
    (hlt : ∀ a ∈ out, a.ord < n) (he : e.ord = n) : (out ++ [e]).Pairwise fun a b => a.ord < b.ord := by
  refine List.pairwise_append.2 ⟨h, List.pairwise_singleton _ _, fun a ha b hb => ?_⟩
  rw [List.mem_singleton.1 hb, he]
  exact hlt a ha

/-- The element at the next ordinal takes a place while the unit issues (R86). -/
theorem UnitRows.place {e : Elem} {n : Nat} (h : UnitRows u) (hn : NoFill u) (hp : u.phase = .issuing)
    (he : e.ord = u.nextOrd) (hf : e.fill = false) :
    UnitRows { u with outstanding := u.outstanding ++ [e], nextOrd := u.nextOrd + 1, sliceCounter := n } := by
  have hlt := h.ord_lt hn
  have hfault : u.faulting = none := by
    have := h.halted
    simpa [hp] using this
  have hdone := h.done
  refine ⟨h.wraps, by simp only; omega, h.endedRise, fun o ho => ?_, rise_append h.rise hlt he, ?_, h.halted, ?_, ?_⟩
  · have := h.ended o ho
    simp only
    omega
  · intro a ha
    rcases List.mem_append.1 ha with ha | ha
    · obtain ⟨h1, h2, _, _⟩ := h.elems a ha
      have := hlt a ha
      exact ⟨h1, h2, fun _ => by simp only; omega, fun hx => by simp [hn a ha] at hx⟩
    · rw [List.mem_singleton.1 ha, he]
      exact ⟨h.done, fun hx => lt_irrefl _ (h.ended _ hx).2, fun _ => by simp, fun hx => by simp [hf] at hx⟩
  · simp [hfault]
  · simp [hp]

theorem RunRows.place {e : Elem} {n : Nat} (h : RunRows live t p u) (hlt : u.nextOrd < takeUps p)
    (he : e.ord = u.nextOrd) (hf : e.fill = false) :
    RunRows live t p { u with outstanding := u.outstanding ++ [e], nextOrd := u.nextOrd + 1, sliceCounter := n } := by
  refine ⟨h.plan, hlt, h.faultWithin, fun a ha hfill => ?_, h.cursor, fun hl h1 h2 o ho ho' => ?_⟩
  · rcases List.mem_append.1 ha with ha | ha
    · exact h.fills a ha hfill
    · rw [List.mem_singleton.1 ha, hf] at hfill
      cases hfill
  · simp only at ho ho'
    rcases Nat.lt_or_ge o u.nextOrd with ho'' | ho''
    · rcases h.covered hl h1 h2 o ho ho'' with hin | ⟨a, ha, hfa, horda⟩
      · exact .inl hin
      · exact .inr ⟨a, List.mem_append_left _ ha, hfa, horda⟩
    · exact .inr ⟨e, by simp, hf, by omega⟩

/-- The fill read takes a place at the next ordinal (R55). -/
theorem UnitRows.placeFill {e : Elem} (h : UnitRows u) (hn : NoFill u) (hp : u.phase = .issuing)
    (he : e.ord = u.nextOrd) (hf : e.fill = true) : UnitRows { u with outstanding := u.outstanding ++ [e] } := by
  have hlt := h.ord_lt hn
  have hfault : u.faulting = none := by
    have := h.halted
    simpa [hp] using this
  refine ⟨h.wraps, h.done, h.endedRise, h.ended, rise_append h.rise hlt he, ?_, h.halted, by simp [hfault],
    by simp [hp]⟩
  intro a ha
  rcases List.mem_append.1 ha with ha | ha
  · exact h.elems a ha
  · rw [List.mem_singleton.1 ha, he]
    exact ⟨h.done, fun hx => lt_irrefl _ (h.ended _ hx).2, fun hx => by simp [hf] at hx, fun _ => rfl⟩

theorem RunRows.placeFill {e : Elem} (h : RunRows live t p u)
    (hfill : e.ord < takeUps p ∧ p.kind = .get ∧ p.policy = .hold ∧ inWindow p e.ord = false ∧
      (e.stage = .readHeld ∨ e.stage = .readIssued)) :
    RunRows live t p { u with outstanding := u.outstanding ++ [e] } := by
  refine ⟨h.plan, h.within, h.faultWithin, fun a ha hfa => ?_, h.cursor, fun hl h1 h2 o ho ho' => ?_⟩
  · rcases List.mem_append.1 ha with ha | ha
    · exact h.fills a ha hfa
    · rw [List.mem_singleton.1 ha]
      exact hfill
  · rcases h.covered hl h1 h2 o ho ho' with hin | ⟨a, ha, hfa, horda⟩
    · exact .inl hin
    · exact .inr ⟨a, List.mem_append_left _ ha, hfa, horda⟩

/-- A unit that goes on issuing, or drains for a finish or a preemption, keeps its rows (R83, R85). -/
theorem UnitRows.with_phase {ph : Phase} {n m : Nat} (h : UnitRows u) (hp : u.phase = .issuing)
    (hph : ph ≠ .draining .halt) (hpa : ph ≠ .draining .abort) :
    UnitRows { u with phase := ph, sliceCounter := n, sliceSize := m } := by
  have hfault : u.faulting = none := by
    have := h.halted
    simpa [hp] using this
  exact ⟨h.wraps, h.done, h.endedRise, h.ended, h.rise, h.elems, by simp [hph, hfault], h.faulted,
    fun ha => absurd ha hpa⟩

theorem RunRows.with_phase {ph : Phase} {n m : Nat} (h : RunRows live t p u) (hp : u.phase = .issuing) :
    RunRows live t p { u with phase := ph, sliceCounter := n, sliceSize := m } :=
  ⟨h.plan, h.within, h.faultWithin, h.fills, h.cursor, fun hl _ _ => h.covered hl (by simp [hp]) (by simp [hp])⟩

/-! ## An abort (R97, R183) -/

theorem UnitRows.beginAbort (h : UnitRows u) : UnitRows (beginAbort u) := by
  have hsub : (u.outstanding.filter fun e => inFlightStage e.stage).Sublist u.outstanding := List.filter_sublist
  exact ⟨h.wraps, h.done, h.endedRise, h.ended, h.rise.sublist hsub, fun e he => h.elems e (hsub.subset he),
    by simp [Machine.beginAbort], by simp [Machine.beginAbort], fun _ e he => (List.mem_filter.1 he).2⟩

theorem RunRows.beginAbort (h : RunRows live t p u) : RunRows live t p (beginAbort u) :=
  ⟨h.plan, h.within, by simp [Machine.beginAbort], fun e he => h.fills e (List.mem_filter.1 he).1, h.cursor,
   fun _ _ ha => absurd rfl ha⟩

end
end Sys2Proof.Machine
end

section
set_option Elab.async false
/-!
# An acknowledged write: the prefix, the counts and the cursor (R49, R50, R56, R88)
-/

namespace Sys2Proof.Machine

/-! ## Inserting an ended ordinal -/

theorem mem_insertOrd {o a : Nat} {l : List Nat} : a ∈ insertOrd o l ↔ a = o ∨ a ∈ l := by
  induction l with
  | nil => simp [insertOrd]
  | cons x xs ih =>
    unfold insertOrd
    split
    · simp
    · simp only [List.mem_cons, ih]
      tauto

theorem insertOrd_perm (o : Nat) (l : List Nat) : (insertOrd o l).Perm (o :: l) := by
  induction l with
  | nil => exact .refl _
  | cons x xs ih =>
    unfold insertOrd
    split
    · exact .refl _
    · exact (ih.cons x).trans (.swap o x xs)

theorem insertOrd_pairwise {o : Nat} {l : List Nat} (h : l.Pairwise (· < ·)) (ho : o ∉ l) :
    (insertOrd o l).Pairwise (· < ·) := by
  induction l with
  | nil => exact List.pairwise_singleton _ _
  | cons x xs ih =>
    obtain ⟨hx, hxs⟩ := List.pairwise_cons.1 h
    simp only [List.mem_cons, not_or] at ho
    unfold insertOrd
    split
    · rename_i hle
      refine List.pairwise_cons.2 ⟨fun a ha => ?_, h⟩
      rcases List.mem_cons.1 ha with rfl | ha
      · omega
      · have := hx a ha; omega
    · rename_i hle
      refine List.pairwise_cons.2 ⟨fun a ha => ?_, ih hxs ho.2⟩
      rcases mem_insertOrd.1 ha with rfl | ha
      · omega
      · exact hx a ha

/-! ## The prefix -/

/-- The ordinals from `a` up to, but not including, `b`. -/
def ordsFrom (a b : Nat) : List Nat := (List.range (b - a)).map fun i => a + i

theorem ordsFrom_self (a : Nat) : ordsFrom a a = [] := by simp [ordsFrom]

theorem ordsFrom_succ {a b : Nat} (h : a < b) : ordsFrom a b = a :: ordsFrom (a + 1) b := by
  obtain ⟨n, rfl⟩ : ∃ n, b = a + 1 + n := ⟨b - (a + 1), by omega⟩
  have h1 : a + 1 + n - a = n + 1 := by omega
  have h2 : a + 1 + n - (a + 1) = n := by omega
  simp only [ordsFrom, h1, h2, List.range_succ_eq_map, List.map_cons, List.map_map, Nat.add_zero]
  congr 1
  exact List.map_congr_left fun i _ => by simp only [Function.comp]; omega

theorem mem_ordsFrom {a b o : Nat} : o ∈ ordsFrom a b ↔ a ≤ o ∧ o < b := by
  simp only [ordsFrom, List.mem_map, List.mem_range]
  constructor
  · rintro ⟨i, hi, rfl⟩; omega
  · rintro ⟨h1, h2⟩; exact ⟨o - a, by omega, by omega⟩

theorem range_append_ordsFrom {a b : Nat} (h : a ≤ b) : List.range a ++ ordsFrom a b = List.range b := by
  obtain ⟨n, rfl⟩ := Nat.exists_eq_add_of_le h
  rw [ordsFrom, List.range_add, Nat.add_sub_cancel_left]

/-- The unit whose prefix has grown to `n`, with these ordinals left above it (R50, R56, R88). -/
def grownUnit (p : Plan) (u : TransferUnit) (n : Nat) (rest : List Nat) : TransferUnit :=
  { u with
    done := n, ended := rest,
    wraps := if p.policy = .wrap then min 65535 (u.wraps + (ordsFrom u.done n).countP fun o => isLast p o) else u.wraps,
    extra := if p.policy = .zero then u.extra + (ordsFrom u.done n).countP fun o => !inWindow p o else u.extra }

theorem grownUnit_self (p : Plan) {u : TransferUnit} (hw : u.wraps ≤ 65535) (rest : List Nat) :
    grownUnit p u u.done rest = { u with ended := rest } := by
  have hmin : min 65535 u.wraps = u.wraps := by omega
  simp [grownUnit, ordsFrom_self, hmin]

/-- The prefix that grows by one element first and then to `n` has grown to `n`. -/
theorem grownUnit_countElement (p : Plan) (u : TransferUnit) {n : Nat} (h : u.done < n) (rest : List Nat) :
    grownUnit p (countElement p u.done u) n rest = grownUnit p u n rest := by
  have hlast : isLast p u.done = false ∨ isLast p u.done = true := by cases isLast p u.done <;> simp
  have hin : inWindow p u.done = false ∨ inWindow p u.done = true := by cases inWindow p u.done <;> simp
  simp only [grownUnit, countElement, ordsFrom_succ h, List.countP_cons]
  congr 1
  · by_cases hp : p.policy = .wrap
    · rcases hlast with hl | hl
      · simp [hp, hl]
      · simp only [hp, hl, and_self, if_true, Config.wrapsMax]
        omega
    · simp [hp]
  · by_cases hp : p.policy = .zero
    · rcases hin with hi | hi
      · simp only [hp, hi, and_self, if_true, Bool.not_false]
        omega
      · simp [hp, hi]
    · simp [hp]

/-- The prefix grows over the ended ordinals that follow it, and stops at the first gap (R88). -/
theorem advancePrefix_eq (p : Plan) {l : List Nat} {u : TransferUnit} (hl : l.Pairwise (· < ·))
    (hge : ∀ o ∈ l, u.done ≤ o) (hw : u.wraps ≤ 65535) :
    ∃ n rest, u.done ≤ n ∧ l = ordsFrom u.done n ++ rest ∧ (∀ o ∈ rest, n < o) ∧
      advancePrefix p l u = grownUnit p u n rest := by
  induction l generalizing u with
  | nil => exact ⟨u.done, [], le_rfl, by simp [ordsFrom_self], by simp, (grownUnit_self p hw []).symm⟩
  | cons x xs ih =>
    obtain ⟨hx, hxs⟩ := List.pairwise_cons.1 hl
    unfold advancePrefix
    by_cases hxd : x = u.done
    · rw [if_pos hxd]
      subst hxd
      have hw' : (countElement p u.done u).wraps ≤ 65535 := by
        simp only [countElement, Config.wrapsMax]
        split <;> omega
      obtain ⟨n, rest, h1, h2, h3, h4⟩ := ih (u := countElement p u.done u) hxs (fun o ho => hx o ho) hw'
      have hlt : u.done < n := h1
      refine ⟨n, rest, hlt.le, ?_, h3, ?_⟩
      · rw [ordsFrom_succ hlt, List.cons_append]
        exact congrArg _ h2
      · rw [h4, grownUnit_countElement p u hlt]
    · rw [if_neg hxd]
      have hgt : ∀ o ∈ x :: xs, u.done < o := by
        intro o ho
        have hux := hge x (by simp)
        rcases List.mem_cons.1 ho with rfl | ho
        · omega
        · have := hx o ho; omega
      exact ⟨u.done, x :: xs, le_rfl, by simp [ordsFrom_self], hgt, (grownUnit_self p hw _).symm⟩

/-! ## The element that ends -/

/-- The unit after the write of the element at `ord` is acknowledged. -/
def endedUnit (p : Plan) (ord : Nat) (u : TransferUnit) : TransferUnit :=
  let u' := { u with outstanding := withoutElem u.outstanding (.element ord) }
  advancePrefix p (insertOrd ord u'.ended) u'

section
variable {u : TransferUnit} {p : Plan} {ord : Nat} {e : Elem}

/-- What the prefix grows to at an acknowledged write: the ordinals ended are those before and `ord`. -/
theorem endedUnit_eq (p : Plan) (hdone : u.done ≤ ord) (hnew : ord ∉ u.ended) (hrise : u.ended.Pairwise (· < ·))
    (hgt : ∀ o ∈ u.ended, u.done < o) (hw : u.wraps ≤ 65535) :
    ∃ n rest, u.done ≤ n ∧ insertOrd ord u.ended = ordsFrom u.done n ++ rest ∧ (∀ o ∈ rest, n < o) ∧
      endedUnit p ord u = grownUnit p { u with outstanding := withoutElem u.outstanding (.element ord) } n rest :=
  advancePrefix_eq (u := { u with outstanding := withoutElem u.outstanding (.element ord) }) p
    (insertOrd_pairwise hrise hnew) (fun o ho => by
    rcases mem_insertOrd.1 ho with rfl | ho
    · exact hdone
    · exact (hgt o ho).le) hw

theorem UnitRows.endedUnit_eq (h : UnitRows u) (p : Plan) (he : e ∈ u.outstanding) (ho : e.ord = ord) :
    ∃ n rest, u.done ≤ n ∧ insertOrd ord u.ended = ordsFrom u.done n ++ rest ∧ (∀ o ∈ rest, n < o) ∧
      endedUnit p ord u = grownUnit p { u with outstanding := withoutElem u.outstanding (.element ord) } n rest := by
  obtain ⟨h1, h2, _, _⟩ := h.elems e he
  rw [ho] at h1 h2
  exact Machine.endedUnit_eq p h1 h2 h.endedRise (fun o ho => (h.ended o ho).1) h.wraps

/-- The ordinals ended after the write are those ended before it, and `ord`. -/
theorem endedOrds_perm {n : Nat} {rest : List Nat} {v : TransferUnit} (hn : u.done ≤ n)
    (hl : insertOrd ord u.ended = ordsFrom u.done n ++ rest) (hd : v.done = n) (he : v.ended = rest) :
    (endedOrds v).Perm (ord :: endedOrds u) := by
  have hsplit : endedOrds v = List.range u.done ++ insertOrd ord u.ended := by
    rw [endedOrds, hd, he, hl, ← List.append_assoc, range_append_ordsFrom hn]
  rw [hsplit]
  exact ((insertOrd_perm ord u.ended).append_left _).trans List.perm_middle

theorem UnitRows.endedUnit (h : UnitRows u) (p : Plan) (he : e ∈ u.outstanding) (hf : e.fill = false)
    (ho : e.ord = ord) : UnitRows (endedUnit p ord u) := by
  obtain ⟨n, rest, hn, hl, hrest, heq⟩ := h.endedUnit_eq p he ho
  obtain ⟨hdone, hnew, hnext, _⟩ := h.elems e he
  rw [ho] at hdone hnew hnext
  have hperm : ∀ o, (o < n ∨ o ∈ rest) ↔ o = ord ∨ o < u.done ∨ o ∈ u.ended := by
    intro o
    have := (endedOrds_perm (v := { u with done := n, ended := rest }) hn hl rfl rfl).mem_iff (a := o)
    simpa only [mem_endedOrds, List.mem_cons] using this
  have hlt : ∀ o, o < n ∨ o ∈ rest → o < u.nextOrd := by
    intro o hx
    rcases (hperm o).1 hx with rfl | hx
    · exact hnext hf
    · exact endedOrds_lt_nextOrd h o (mem_endedOrds.2 hx)
  have hsub := withoutElem_sublist u.outstanding (.element ord)
  have hends : (ordsFrom u.done n ++ rest).Pairwise (· < ·) := hl ▸ insertOrd_pairwise h.endedRise hnew
  rw [heq]
  refine ⟨?_, ?_, (List.pairwise_append.1 hends).2.1, fun o ho' => ⟨hrest o ho', hlt o (.inr ho')⟩,
    h.rise.sublist hsub, fun a ha => ?_, h.halted, fun f hfs a ha => h.faulted f hfs a (hsub.subset ha),
    fun hab a ha => h.aborted hab a (hsub.subset ha)⟩
  · have := h.wraps
    simp only [grownUnit, Config.wrapsMax] at this ⊢
    split <;> omega
  · show n ≤ u.nextOrd
    rcases Nat.eq_zero_or_pos n with hz | hz
    · omega
    · have := hlt (n - 1) (.inl (by omega)); omega
  · have hmem := hsub.subset ha
    obtain ⟨h1, h2, h3, h4⟩ := h.elems a hmem
    have hne : a.ord ≠ ord := by
      intro hx
      have : a = e := h.elem_ext hmem he (hx.trans ho.symm)
      subst this
      have := (List.mem_filter.1 ha).2
      simp [refersTo, hf, hx] at this
    have hout : ¬(a.ord < n ∨ a.ord ∈ rest) := by
      rw [hperm]
      rintro (hx | hx | hx)
      · exact hne hx
      · omega
      · exact h2 hx
    rw [not_or] at hout
    exact ⟨show n ≤ a.ord by omega, hout.2, h3, h4⟩

/-- The cursor a record that counts `ord` next has. -/
theorem cursorAt_advanceCursor {t : Tenant} {l l' : List Nat} (hc : CursorAt t p (l.countP (inWindow p)))
    (hplan : PlanOfTenant t p) (hd : l.Nodup) (hlt : ∀ o ∈ l, o < p.count) (ho : ord < p.count) (hnew : ord ∉ l)
    (hp : l'.Perm (ord :: l)) : CursorAt (advanceCursor p ord t) p (l'.countP (inWindow p)) := by
  intro hk
  obtain ⟨q, r, _, hplan⟩ := hplan
  obtain ⟨w, hw, hcs, hcur⟩ := hc hk
  obtain ⟨_, w', hw', harea⟩ := planOf_window hplan hk
  obtain rfl : w = w' := Option.some.inj (hw.symm.trans hw')
  have hfits := policyFits_of_planOf hplan
  have hnone : p.policy ≠ .none := by
    rcases hk with hk | hk <;> simp only [PolicyFits, hk] at hfits <;> rintro hx <;> simp [hx] at hfits
  have hpos : 0 < p.area := by rw [harea, windowArea]; positivity
  rw [hp.countP_eq, List.countP_cons]
  unfold advanceCursor
  by_cases hin : inWindow p ord = true
  · rw [if_pos ⟨hk, hin⟩]
    refine ⟨{ w with cursor := cursorStep (p.policy == .wrap) p.area w.cursor }, by simp [hw], hcs, ?_⟩
    simp only [hin, if_true]
    rw [hcur]
    exact cursorStep_cursorAdvanced hpos _ fun hwrap => countP_inWindow_lt hwrap hnone hd hlt ho hnew hin
  · rw [if_neg (fun hx => hin hx.2)]
    refine ⟨w, hw, hcs, ?_⟩
    rw [hcur]
    simp [hin]

/-- The cursor and the held value do not change a tenant's plan. -/
theorem PlanOfTenant.with_window {t : Tenant} {w' : Option Window} (h : PlanOfTenant t p)
    (hf : ∀ v, t.window = some v → ∃ v', w' = some v' ∧ SameFrame v v') (hn : t.window = none → w' = none) :
    PlanOfTenant { t with window := w' } p := by
  obtain ⟨q, r, hc, hp⟩ := h
  exact ⟨q, r, hc, by rw [planOf_congr rfl hf hn]; exact hp⟩

/-- A window update that keeps the frame. -/
theorem PlanOfTenant.map_window {t : Tenant} {g : Window → Window} (h : PlanOfTenant t p)
    (hg : ∀ v, SameFrame v (g v)) : PlanOfTenant { t with window := t.window.map g } p :=
  h.with_window (fun v hv => ⟨g v, by simp [hv], hg v⟩) fun hn => by simp [hn]

theorem PlanOfTenant.advanceCursor {t : Tenant} (h : PlanOfTenant t p) : PlanOfTenant (advanceCursor p ord t) p := by
  unfold Machine.advanceCursor
  split
  · exact h.map_window fun v => rfl
  · exact h

theorem RunRows.endedUnit {t : Tenant} {live : Prop} (h : RunRows live t p u) (hu : UnitRows u)
    (he : e ∈ u.outstanding) (hf : e.fill = false) (ho : e.ord = ord) :
    RunRows live (advanceCursor p ord t) p (endedUnit p ord u) := by
  obtain ⟨n, rest, hn, hl, hrest, heq⟩ := hu.endedUnit_eq p he ho
  obtain ⟨hdone, hnew, hnext, _⟩ := hu.elems e he
  rw [ho] at hdone hnew hnext
  have hsub := withoutElem_sublist u.outstanding (.element ord)
  have hcount : ∀ o, o < u.nextOrd → o < p.count := fun o hx =>
    lt_of_lt_of_le hx (h.within.trans (takeUps_le_count p))
  rw [heq]
  have hperm := endedOrds_perm
    (v := grownUnit p { u with outstanding := withoutElem u.outstanding (.element ord) } n rest) hn hl rfl rfl
  refine ⟨h.plan.advanceCursor, h.within, h.faultWithin, fun a ha => h.fills a (hsub.subset ha), ?_,
    fun hlive h1 h2 o ho1 ho2 => ?_⟩
  · refine cursorAt_advanceCursor h.cursor h.plan (endedOrds_nodup hu)
      (fun o hx => hcount o (endedOrds_lt_nextOrd hu o hx)) (hcount ord (hnext hf)) ?_ hperm
    rw [mem_endedOrds]
    rintro (hx | hx)
    · omega
    · exact hnew hx
  · by_cases hin : o ∈ rest
    · exact .inl hin
    · have ho1' : n ≤ o := ho1
      have hmem := hperm.mem_iff (a := o)
      simp only [mem_endedOrds, List.mem_cons] at hmem
      have hout : ¬(o = ord ∨ o < u.done ∨ o ∈ u.ended) := by
        rw [← hmem]
        rintro (hx | hx)
        · exact absurd hx (by show ¬ o < n; omega)
        · exact hin hx
      simp only [not_or, not_lt] at hout
      obtain ⟨hne, hge, hnot⟩ := hout
      rcases h.covered hlive h1 h2 o hge ho2 with hx | ⟨a, ha, hfa, horda⟩
      · exact absurd hx hnot
      · refine .inr ⟨a, List.mem_filter.2 ⟨ha, ?_⟩, hfa, horda⟩
        simp [refersTo, hfa, horda, hne]

end
end Sys2Proof.Machine
end

section
set_option Elab.async false
/-!
# The rules by which a command keeps a sound state

A sound state is a sound context record for every tenant, and the grant, the control context, the transfer unit and the
run beside them (`SoundParts`). Each rule here says which change of a sound state is sound again; the commands are then
taken apart into these changes.
-/

namespace Sys2Proof.Machine

/-- The parts of `Sound`: the tenants one by one, and the rest. -/
structure SoundParts (s : State) : Prop where
  tenants : ∀ k, TenantOk (getTenant s k)
  grant : GrantInv s
  off : OffInv s
  control : ControlRings s
  places : s.tu.outstanding.length ≤ 8
  unit : UnitRows s.tu
  run : RunInv s

theorem sound_iff {s : State} : Sound s ↔ SoundParts s := by
  constructor
  · rintro ⟨hg, ht, ho, ⟨hc, hr⟩, ⟨hp, hq⟩, ⟨hu, hrun, hw⟩, hm⟩
    exact ⟨fun k => ⟨(ht k).1, (ht k).2, hr k, hq k, (hw k).1, (hw k).2, (hm k).1, (hm k).2⟩, hg, ho, hc, hp,
      unitInv_iff.1 hu, hrun⟩
  · rintro ⟨ht, hg, ho, hc, hp, hu, hrun⟩
    exact ⟨hg, fun k => ⟨(ht k).table, (ht k).detachedRow⟩, ho, ⟨hc, fun k => (ht k).rings⟩,
      ⟨hp, fun k => (ht k).queue⟩, ⟨unitInv_iff.2 hu, hrun, fun k => ⟨(ht k).windows, (ht k).stopped⟩⟩,
      fun k => ⟨(ht k).segment, (ht k).mapFits⟩⟩

section
variable {s t : State} {k : TenantId}

theorem serving_iff : serving s = true ↔ s.engine = .on ∨ s.engine = .ctlStopped := by simp [serving]

theorem engine_ne_off_of_serving (h : serving s = true) : s.engine ≠ .off := by
  rcases serving_iff.1 h with h | h <;> simp [h]

theorem engine_ne_resetting_of_serving (h : serving s = true) : s.engine ≠ .resetting := by
  rcases serving_iff.1 h with h | h <;> simp [h]

/-! ## Runs untouched -/

/-- The unit and the grant request as before, every tenant by an operation that touches no run. -/
theorem SoundParts.quiet (h : SoundParts s) (htu : t.tu = s.tu) (hg : t.grantInProgress = s.grantInProgress)
    (hq : ∀ k, Quiet (getTenant s k) (getTenant t k)) (hoff : OffInv t) (hc : ControlRings t)
    (hlive : t.engine ≠ .resetting → s.engine ≠ .resetting) : SoundParts t := by
  obtain ⟨g1, g2, g3, g4, g5, g6, g7⟩ := h.grant
  refine ⟨fun k => (hq k).ok, ⟨?_, ?_, ?_, ?_, fun k hk => ?_, fun k hk => ?_, fun k hk => ?_⟩, hoff, hc, ?_, ?_, ?_⟩
  · rw [htu]; exact g1
  · rw [htu]; exact g2
  · rw [htu, hg]; exact g3
  · rw [htu]; exact g4
  · rw [htu]; exact g5 k (((hq k).run.state (.inr (.inl hk))).symm.trans hk)
  · rw [htu]; exact g6 k (((hq k).run.state (.inr (.inr hk))).symm.trans hk)
  · rw [htu] at hk
    have hr := g7 k hk
    rw [(hq k).run.state (.inl hr)]
    exact hr
  · rw [htu]; exact h.places
  · rw [htu]; exact h.unit
  · rw [runInv_iff, htu]
    intro k hk
    obtain ⟨h1, h2⟩ := runInv_iff.1 h.run k hk
    refine ⟨h1, fun p hp => ?_⟩
    obtain ⟨hplan, r2, r3, r4, hcur, hcov⟩ := h2 p hp
    obtain ⟨hrec, hsur, hwin⟩ := (hq k).run.parts (g7 k hk)
    refine ⟨?_, r2, r3, r4, ?_, fun hl => hcov (hlive hl)⟩
    · obtain ⟨q, r, hc, hpo⟩ := hplan
      refine ⟨q, r, hrec.trans hc, ?_⟩
      rw [← hpo]
      unfold planOf windowSurface
      rw [hwin, hsur]
    · intro hk'
      rw [hwin]
      exact hcur hk'

theorem OffInv.of_engine_ne (h : OffInv s) (hr : t.rstAsserted = s.rstAsserted) (hs : s.engine ≠ .off)
    (ht : t.engine ≠ .off) : OffInv t :=
  ⟨fun hx => absurd (h.1 (hr.symm.trans hx)) hs, fun hx => absurd hx ht⟩

/-- One tenant by an operation that touches no run. -/
theorem SoundParts.setTenant {x : Tenant} (h : SoundParts s) (hq : Quiet (getTenant s k) x) (he : s.engine ≠ .off) :
    SoundParts (setTenant s k x) := by
  refine h.quiet rfl rfl (fun j => ?_) (h.off.of_engine_ne rfl he he) h.control id
  rw [getTenant_setTenant]
  split
  · rename_i hj; subst hj; exact hq
  · exact (h.tenants j).quiet_refl

/-- The control context alone. -/
theorem SoundParts.with_control {c : Control} (h : SoundParts s) (he : s.engine ≠ .off)
    (hc : serving s = true → c.sqCode ≤ 6 ∧ c.cqCode ≤ 6 ∧ c.sqBase.toNat % 64 = 0 ∧ c.cqBase.toNat % 32 = 0 ∧
      CompletionRingOk c.cu c.cqCode) : SoundParts { s with control := c } :=
  h.quiet rfl rfl (fun k => (h.tenants k).quiet_refl) (h.off.of_engine_ne rfl he he)
    ⟨h.control.1, h.control.2.1, h.control.2.2.1, hc⟩ id

/-- The current control record and its completion. -/
theorem SoundParts.completeControl (h : SoundParts s) (he : s.engine ≠ .off) (c : CtlRecord) (d : Completion) :
    SoundParts (completeControl s c d) := h.with_control he h.control.2.2.2

theorem SoundParts.waitOnTarget (h : SoundParts s) (he : s.engine ≠ .off) (c : CtlRecord) :
    SoundParts (waitOnTarget s c) := h.with_control he h.control.2.2.2

/-- Fields that no invariant speaks of. -/
theorem SoundParts.with_idle (h : SoundParts s) (q : List Instr) (l : Lines) (n : Nat) (a : Option TAnswer) :
    SoundParts { s with pending := q, latches := l, draws := n, tport := a } :=
  h.quiet rfl rfl (fun k => (h.tenants k).quiet_refl) h.off h.control id

/-! ## Resets -/

theorem tenantOk_default : TenantOk {} := tenantOk_detachTenant {}

/-- The reset values with sound registers (R18, R19). -/
theorem SoundParts.of_reset (ht : t.tenants = {}) (htu : t.tu = {}) (hc : t.control = {}) (he : t.engine = .off)
    (hg : t.grantInProgress = none) (hs : t.sqCode.toNat ≤ 6) (hq : t.cqCode.toNat ≤ 6) (hb : t.base.toNat % 64 = 0) :
    SoundParts t := by
  have htenant : ∀ k, getTenant t k = {} := by
    intro k
    rw [getTenant_of_tenants_eq (t := State.reset) ht]
    fin_cases k <;> rfl
  refine ⟨fun k => by rw [htenant k]; exact tenantOk_default, ?_, ?_, ?_, ?_, ?_, ?_⟩
  · refine ⟨fun _ => htu, fun _ => by rw [htu], fun hx => absurd hg hx, by rw [htu]; rfl, ?_, ?_, ?_⟩
    · intro k hk; rw [htenant k] at hk; cases hk
    · intro k hk; rw [htenant k] at hk; cases hk
    · intro k hk; rw [htu] at hk; cases hk
  · exact ⟨fun _ => he, fun _ => ⟨hc, htu, hg, fun k => by rw [htenant k]; rfl⟩⟩
  · refine ⟨hs, hq, hb, fun hx => absurd he (engine_ne_off_of_serving hx)⟩
  · rw [htu]; simp
  · rw [htu]; exact ⟨by simp, by simp, by simp, by simp, by simp, by simp, by simp, by simp, by simp⟩
  · intro k hk; rw [htu] at hk; cases hk

theorem SoundParts.resetBlocks (h : SoundParts s) : SoundParts (resetBlocks s) :=
  .of_reset rfl rfl rfl rfl rfl h.control.1 h.control.2.1 h.control.2.2.1

theorem SoundParts.endResetIfDrained (h : SoundParts s) : SoundParts (endResetIfDrained s) := by
  rcases endResetIfDrained_cases s with he | ⟨_, _, he⟩ <;> rw [he]
  · exact h
  · exact h.resetBlocks

/-! ## The grant and its end -/

theorem SoundParts.runs_of_granted (h : SoundParts s) (hk : s.tu.granted = some k) : Runs (getTenant s k) :=
  h.grant.2.2.2.2.2.2 k hk

theorem SoundParts.granted_of_running (h : SoundParts s) (hk : (getTenant s k).state = .running) :
    s.tu.granted = some k := (h.grant.2.2.2.2.1 k hk).1

theorem SoundParts.granted_of_runs (h : SoundParts s) (hk : Runs (getTenant s k)) : s.tu.granted = some k := by
  rcases hk with hk | hk
  · exact h.granted_of_running hk
  · exact (h.grant.2.2.2.2.2.1 k hk).1

theorem SoundParts.phase_ne_free (h : SoundParts s) (hk : s.tu.granted = some k) : s.tu.phase ≠ .free := by
  intro hp
  rw [h.grant.1 hp] at hk
  cases hk

/-- While no tenant is granted, none runs. -/
theorem SoundParts.not_runs_of_free (h : SoundParts s) (hp : s.tu.phase = .free) (k : TenantId) :
    ¬Runs (getTenant s k) := fun hr => h.phase_ne_free (h.granted_of_runs hr) hp

/-- A granted tenant serves a part that is not OFF. -/
theorem SoundParts.engine_ne_off_of_granted (h : SoundParts s) (hk : s.tu.granted = some k) : s.engine ≠ .off := by
  intro he
  rw [(h.off.2 he).2.1] at hk
  cases hk

/-- The granted tenant's run is over and the unit FREE. -/
theorem SoundParts.freeUnit {x : Tenant} (h : SoundParts s) (hk : s.tu.granted = some k) (hx : TenantOk x)
    (hn : ¬Runs x) : SoundParts { Machine.setTenant s k x with tu := {} } := by
  have he := h.engine_ne_off_of_granted hk
  have hget : ∀ j, getTenant { Machine.setTenant s k x with tu := {} } j = if j = k then x else getTenant s j :=
    fun j => getTenant_setTenant s j k x
  have hnone : ∀ j, ¬Runs (getTenant { Machine.setTenant s k x with tu := {} } j) := by
    intro j hj
    rw [hget] at hj
    split at hj
    · exact hn hj
    · rename_i hne
      exact hne (Option.some.inj ((h.granted_of_runs hj).symm.trans hk))
  refine ⟨fun j => ?_, ⟨fun _ => rfl, fun _ => rfl, fun _ => rfl, rfl, fun j hj => ?_, fun j hj => ?_, ?_⟩,
    h.off.of_engine_ne rfl he he, h.control, by simp, ?_, ?_⟩
  · rw [hget]
    split
    · exact hx
    · exact h.tenants j
  · exact absurd (.inl hj) (hnone j)
  · exact absurd (.inr hj) (hnone j)
  · intro j hj; cases hj
  · exact ⟨by simp, by simp, by simp, by simp, by simp, by simp, by simp, by simp, by simp⟩
  · intro j hj; cases hj

/-- The end of a run applies the operation that pends for it (R110). -/
theorem SoundParts.endOfRun (h : SoundParts s) (he : s.engine ≠ .off) (k : TenantId) : SoundParts (endOfRun s k) := by
  unfold Machine.endOfRun
  simp only
  split
  · exact h
  · rename_i op hop
    have hd : (getTenant s k).state ≠ .detached := fun hd => by
      rw [(h.tenants k).pendingMap_of_detached hd] at hop; cases hop
    have hset := h.setTenant ((h.tenants k).quiet_applyMap hd ((h.tenants k).mapFits op hop)) he
    split
    · exact hset
    · exact hset.completeControl he _ _

/-- The record ends within its grant (R10, R11, R85). -/
theorem SoundParts.endGrant {x : Tenant} (h : SoundParts s) (hk : s.tu.granted = some k) (hx : TenantOk x)
    (hn : ¬Runs x) : SoundParts (endGrant s k x) :=
  (h.freeUnit hk hx hn).endOfRun (h.engine_ne_off_of_granted hk) k

/-! ## A step of the unit within a grant -/

/-- The unit's fields that a step of the element pipeline leaves, and the statuses it records. -/
structure SameGrant (u u' : TransferUnit) : Prop where
  granted : u'.granted = u.granted
  plan : u'.plan = u.plan
  free : u'.phase = .free → u.phase = .free
  abort : u'.phase = .draining .abort ↔ u.phase = .draining .abort
  statuses : u'.faulting.all (fun f => isFaultStatus f.status) = true

/-- The unit takes a step under its plan, and the granted tenant's tables follow it. -/
theorem SoundParts.stepUnit {p : Plan} {x : Tenant} {u : TransferUnit} (h : SoundParts s) (hk : s.tu.granted = some k)
    (hp : s.tu.plan = some p) (hx : TenantOk x) (hs : x.state = (getTenant s k).state) (hu : SameGrant s.tu u)
    (hlen : u.outstanding.length ≤ 8) (hrows : UnitRows u) (hrun : RunRows (s.engine ≠ .resetting) x p u) :
    SoundParts { Machine.setTenant s k x with tu := u } := by
  have he := h.engine_ne_off_of_granted hk
  have hfree := h.phase_ne_free hk
  obtain ⟨g1, g2, g3, g4, g5, g6, g7⟩ := h.grant
  have hget : ∀ j, getTenant { Machine.setTenant s k x with tu := u } j = if j = k then x else getTenant s j :=
    fun j => getTenant_setTenant s j k x
  have hstate : ∀ j, (getTenant { Machine.setTenant s k x with tu := u } j).state = (getTenant s j).state := by
    intro j
    rw [hget]
    split
    · rename_i hj; subst hj; exact hs
    · rfl
  refine ⟨fun j => ?_, ⟨fun hx => absurd (hu.free hx) hfree, fun hx => ?_, fun hx => absurd (g3 hx) hfree, hu.statuses,
    fun j hj => ?_, fun j hj => ?_, fun j hj => ?_⟩, h.off.of_engine_ne rfl he he, h.control, hlen, hrows, ?_⟩
  · rw [hget]
    split
    · exact hx
    · exact h.tenants j
  · rw [show ({ Machine.setTenant s k x with tu := u } : State).tu.granted = u.granted from rfl, hu.granted, hk] at hx
    cases hx
  · rw [hstate] at hj
    obtain ⟨h1, h2, h3⟩ := g5 j hj
    exact ⟨hu.granted.trans h1, fun hx => h2 (hu.free hx), fun hx => h3 (hu.abort.1 hx)⟩
  · rw [hstate] at hj
    obtain ⟨h1, h2⟩ := g6 j hj
    exact ⟨hu.granted.trans h1, hu.abort.2 h2⟩
  · rw [hstate]
    exact g7 j (hu.granted.symm.trans hj)
  · rw [runInv_iff]
    intro j hj
    have hjk : j = k := Option.some.inj ((hu.granted.symm.trans hj).symm.trans hk)
    subst hjk
    have hplan : u.plan = some p := hu.plan.trans hp
    refine ⟨fun hx => ?_, fun q hq => ?_⟩
    · rw [show ({ Machine.setTenant s j x with tu := u } : State).tu.plan = u.plan from rfl, hplan] at hx
      cases hx
    · obtain rfl : q = p := Option.some.inj ((hplan.symm.trans hq).symm)
      rw [hget, if_pos rfl]
      exact hrun

/-- The same with the tenants as they stand. -/
theorem SoundParts.stepUnitOnly {p : Plan} {u : TransferUnit} (h : SoundParts s) (hk : s.tu.granted = some k)
    (hp : s.tu.plan = some p) (hu : SameGrant s.tu u) (hlen : u.outstanding.length ≤ 8) (hrows : UnitRows u)
    (hrun : RunRows (s.engine ≠ .resetting) (getTenant s k) p u) : SoundParts { s with tu := u } := by
  have := h.stepUnit hk hp (h.tenants k) rfl hu hlen hrows hrun
  rwa [setTenant_getTenant] at this

theorem SoundParts.runRows {p : Plan} (h : SoundParts s) (hk : s.tu.granted = some k) (hp : s.tu.plan = some p) :
    RunRows (s.engine ≠ .resetting) (getTenant s k) p s.tu := (runInv_iff.1 h.run k hk).2 p hp

/-- A step that leaves phase, grant and recorded fault. -/
theorem SoundParts.sameGrant {u : TransferUnit} (h : SoundParts s) (h1 : u.granted = s.tu.granted)
    (h2 : u.plan = s.tu.plan) (h3 : u.phase = s.tu.phase) (h4 : u.faulting = s.tu.faulting) : SameGrant s.tu u :=
  ⟨h1, h2, fun hx => h3.symm.trans hx, by rw [h3], by rw [h4]; exact h.grant.2.2.2.1⟩

end
end Sys2Proof.Machine
end

section
set_option Elab.async false
/-!
# T-port, resets, fetch, posts and timers keep a sound state
-/

namespace Sys2Proof.Machine

section
variable {s t : State} {k : TenantId}

/-- A tenant that is not DETACHED is a tenant of a part that is not OFF (R16). -/
theorem SoundParts.engine_ne_off_of_state (h : SoundParts s) (hd : (getTenant s k).state ≠ .detached) :
    s.engine ≠ .off := by
  intro he
  have := (h.off.2 he).2.2.2 k
  rw [this] at hd
  exact hd rfl

theorem SoundParts.engine_ne_off_of_attached (h : SoundParts s) (ha : attached (getTenant s k) = true) :
    s.engine ≠ .off := h.engine_ne_off_of_state (attached_iff.1 ha).1

/-! ## The T-port (section 11.5) -/

/-- A write of the window: the answer, and in a part that takes it the word's own rule. -/
theorem SoundParts.tportWrite {act : State → State} (h : SoundParts s)
    (ha : ∀ u, SoundParts u → u.rstAsserted = false → u.engine ≠ .resetting → SoundParts (act u)) :
    SoundParts (tportWrite s act) := by
  rcases tportWrite_cases s act with ⟨_, he⟩ | ⟨_, _, he⟩ | ⟨hr, hne, he⟩ <;> rw [he]
  · exact h.with_idle _ _ _ _
  · exact h.with_idle _ _ _ _
  · exact ha _ (h.with_idle _ _ _ _) hr hne

/-- Alert causes recorded or cleared, in any engine state. -/
theorem SoundParts.with_alerts (h : SoundParts s) (a : TenantId → Option Alert) (c : Option Alert)
    (htu : t.tu = s.tu) (hg : t.grantInProgress = s.grantInProgress) (he : t.engine = s.engine)
    (hr : t.rstAsserted = s.rstAsserted) (hs : t.sqCode = s.sqCode) (hq : t.cqCode = s.cqCode) (hb : t.base = s.base)
    (hc : t.control = { s.control with cu := { s.control.cu with alert := c } })
    (hoff : s.engine = .off → c = none)
    (ht : ∀ k, getTenant t k = { getTenant s k with cu := { (getTenant s k).cu with alert := a k } }) :
    SoundParts t := by
  have hserve : serving t = serving s := by simp [serving, he]
  refine h.quiet htu hg (fun k => ?_) ⟨fun hx => he.trans (h.off.1 (hr.symm.trans hx)), fun hx => ?_⟩ ?_ (by simp [he])
  · rw [ht k]
    exact (h.tenants k).quiet_alert (a k)
  · have hx' : s.engine = .off := he.symm.trans hx
    obtain ⟨o1, o2, o3, o4⟩ := h.off.2 hx'
    refine ⟨by rw [hc, o1, hoff hx'], htu.trans o2, hg.trans o3, fun k => ?_⟩
    rw [ht k, o4 k]
    rfl
  · unfold ControlRings
    rw [hserve, hs, hq, hb, hc]
    exact h.control

theorem SoundParts.indexAlertTenant (h : SoundParts s) (k : TenantId) : SoundParts (indexAlertTenant s k) := by
  refine h.with_alerts
    (fun j => if j = k then recordAlert (getTenant s k).cu.alert .index else (getTenant s j).cu.alert)
    s.control.cu.alert rfl rfl rfl rfl rfl rfl rfl rfl (fun he => by rw [(h.off.2 he).1]) fun j => ?_
  simp only [Machine.indexAlertTenant, getTenant_setTenant]
  split
  · rename_i hj; subst hj; rfl
  · rfl

theorem SoundParts.indexAlertControl (h : SoundParts s) (hs : serving s = true) : SoundParts (indexAlertControl s) :=
  h.with_control (engine_ne_off_of_serving hs) h.control.2.2.2

theorem SoundParts.execProducerIndexWrite {c : Ctx} {w : Word} (h : SoundParts s)
    (he : execProducerIndexWrite c w s = .next t) : SoundParts t := by
  obtain rfl := Host.Outcome.next.inj he
  refine h.tportWrite fun u hu _ _ => ?_
  cases c with
  | control =>
    simp only [producerWriteControl]
    split
    · rename_i hs
      split
      · exact hu.with_control (engine_ne_off_of_serving hs) hu.control.2.2.2
      · exact hu.indexAlertControl hs
    · exact hu
  | tenant k =>
    simp only [producerWriteTenant]
    split
    · rename_i hv
      exact hu.setTenant ((hu.tenants k).quiet_producer hv.1 hv.2) (hu.engine_ne_off_of_attached hv.1)
    · exact hu.indexAlertTenant k

theorem SoundParts.consumerWriteTenant {v : Index} (h : SoundParts s) (k : TenantId) :
    SoundParts (consumerWriteTenant s k v) := by
  unfold Machine.consumerWriteTenant
  simp only
  split
  · rename_i hv
    obtain ⟨ha, hv⟩ := hv
    split
    · exact h
    · have hok := h.tenants k
      have hconsumed : Quiet (getTenant s k) (if (getTenant s k).cu.writeIndex = v then
          { getTenant s k with cu := consume (getTenant s k).cu v, holdoffTimer := none, holdoffExpired := false }
          else { getTenant s k with cu := consume (getTenant s k).cu v }) := by
        split
        · exact hok.quiet_consume ha hv (by simp)
        · exact hok.quiet_consume (timer := (getTenant s k).holdoffTimer) (expired := (getTenant s k).holdoffExpired)
            ha hv hok.rows.holdoffTimer_ne
      refine h.setTenant ?_ (h.engine_ne_off_of_attached ha)
      split
      · exact hconsumed.trans hconsumed.ok.quiet_tryPost
      · exact hconsumed
  · exact h.indexAlertTenant k

theorem SoundParts.tryPostControl (h : SoundParts s) (hs : serving s = true) :
    SoundParts { s with control := tryPostControl s.control } := by
  refine h.with_control (engine_ne_off_of_serving hs) fun _ => ?_
  obtain ⟨h1, h2, h3, h4, h5⟩ := h.control.2.2.2 hs
  rcases tryPostControl_cases s.control with he | ⟨p, _, _, hroom, _, he⟩ <;> rw [he]
  · exact ⟨h1, h2, h3, h4, h5⟩
  · refine ⟨h1, h2, h3, h4, ?_⟩
    have hu : unconsumed (issuePost s.control.cu s.control.cqBase s.control.cqCode p) = unconsumed s.control.cu := rfl
    have hl : (livePost (issuePost s.control.cu s.control.cqBase s.control.cqCode p)).toNat = 1 := rfl
    unfold CompletionRingOk
    simp only
    omega

theorem SoundParts.consumerWriteControl {v : Index} (h : SoundParts s) : SoundParts (consumerWriteControl s v) := by
  unfold Machine.consumerWriteControl
  split
  · rename_i hs
    split
    · rename_i hv
      split
      · exact h
      · have hc : SoundParts { s with control := { s.control with cu := consume s.control.cu v } } := by
          refine h.with_control (engine_ne_off_of_serving hs) fun _ => ?_
          obtain ⟨h1, h2, h3, h4, h5⟩ := h.control.2.2.2 hs
          exact ⟨h1, h2, h3, h4, h5.mono (unconsumed_consume_le hv) fun hl => hl⟩
        exact hc.tryPostControl hs
    · exact h.indexAlertControl hs
  · exact h

theorem SoundParts.execConsumerIndexWrite {c : Ctx} {w : Word} (h : SoundParts s)
    (he : execConsumerIndexWrite c w s = .next t) : SoundParts t := by
  obtain rfl := Host.Outcome.next.inj he
  refine h.tportWrite fun u hu _ _ => ?_
  cases c with
  | control => exact hu.consumerWriteControl
  | tenant k => exact hu.consumerWriteTenant k

theorem clearAlert_eq (hit : Bool) (cu : CompletionUnit) :
    clearAlert hit cu = { cu with alert := if hit then none else cu.alert } := by
  cases hit <;> rfl

theorem SoundParts.execAlertWordWrite {w : Word} (h : SoundParts s) (he : execAlertWordWrite w s = .next t) :
    SoundParts t := by
  obtain rfl := Host.Outcome.next.inj he
  refine h.tportWrite fun u hu _ _ => ?_
  simp only [clearAlert_eq]
  refine hu.with_alerts
    (fun k => if w.getLsbD (tenantNumber k) = true then none else (getTenant u k).cu.alert)
    (if w.getLsbD 0 = true then none else u.control.cu.alert) rfl rfl rfl rfl rfl rfl rfl rfl (fun he => ?_) fun k => ?_
  · rw [(hu.off.2 he).1]
    simp
  · rw [getTenant_with_control, getTenant_mapTenants]

theorem storedCode_le {old field : BitVec 3} (h : old.toNat ≤ 6) : (storedCode old field).toNat ≤ 6 := by
  unfold storedCode
  split <;> bv_omega

/-- The stored registers change (R159, R182). -/
theorem SoundParts.with_registers {sq cq : BitVec 3} {b : Phys} (h : SoundParts s) (hs : sq.toNat ≤ 6)
    (hq : cq.toNat ≤ 6) (hb : b.toNat % 64 = 0) : SoundParts { s with sqCode := sq, cqCode := cq, base := b } :=
  h.quiet rfl rfl (fun k => (h.tenants k).quiet_refl) h.off ⟨hs, hq, hb, h.control.2.2.2⟩ id

theorem SoundParts.storeSizeCodes (h : SoundParts s) (w : Word) : SoundParts (storeSizeCodes s w) :=
  h.with_registers (storedCode_le h.control.1) (storedCode_le h.control.2.1) h.control.2.2.1

/-- The ENABLE write in OFF latches sound geometry (R160). -/
theorem SoundParts.enableFromOff (h : SoundParts s) (hr : s.rstAsserted = false) (he : s.engine = .off) :
    SoundParts (enableFromOff s) := by
  obtain ⟨hs, hq, hb, _⟩ := h.control
  have hc := (h.off.2 he).1
  refine h.quiet rfl rfl (fun k => (h.tenants k).quiet_refl) ⟨fun hx => ?_, fun hx => ?_⟩ ⟨hs, hq, hb, fun _ =>
    ⟨hs, hq, hb, ?_, ?_⟩⟩ (by simp [Machine.enableFromOff, he])
  · have : s.rstAsserted = true := hx
    rw [hr] at this
    cases this
  · cases hx
  · have hslots : ringSlots s.sqCode.toNat * 64 % 32 = 0 := by omega
    simp only [Machine.enableFromOff]
    bv_omega
  · have hpost : livePost (Machine.enableFromOff s).control.cu = false := by
      simp [Machine.enableFromOff, hc, livePost]
    unfold CompletionRingOk
    rw [hpost]
    simp [Machine.enableFromOff, unconsumed]

/-- The taking of a control record touches the control context alone. -/
theorem SoundParts.takeControl (h : SoundParts s) : SoundParts (takeControl s) := by
  rcases takeControl_cases s with he | ⟨e, pend, hon, _, _, he⟩ <;> rw [he]
  · exact h
  · exact h.with_control (by simp [hon]) h.control.2.2.2

theorem SoundParts.tryControlRead (h : SoundParts s) : SoundParts (tryControlRead s) := by
  rcases tryControlRead_cases s with he | ⟨hon, _, _, _, he⟩ <;> rw [he]
  · exact h
  · exact h.with_control (by simp [hon]) h.control.2.2.2

/-- The engine moves between ON and CTL_STOPPED with a control context of the same rings. -/
theorem SoundParts.with_engine {e : Engine} {c : Control} (h : SoundParts s) (hs : serving s = true)
    (he : e = .on ∨ e = .ctlStopped) (hc : c.sqCode = s.control.sqCode) (hq : c.cqCode = s.control.cqCode)
    (hb : c.sqBase = s.control.sqBase) (hcb : c.cqBase = s.control.cqBase)
    (hcu : CompletionRingOk c.cu s.control.cqCode) : SoundParts { s with engine := e, control := c } := by
  obtain ⟨h1, h2, h3, h4⟩ := h.control
  obtain ⟨c1, c2, c3, c4, _⟩ := h4 hs
  refine h.quiet rfl rfl (fun k => (h.tenants k).quiet_refl)
    (h.off.of_engine_ne rfl (engine_ne_off_of_serving hs) (by rcases he with he | he <;> simp [he]))
    ⟨h1, h2, h3, fun _ => ?_⟩ fun _ => engine_ne_resetting_of_serving hs
  show c.sqCode ≤ 6 ∧ c.cqCode ≤ 6 ∧ c.sqBase.toNat % 64 = 0 ∧ c.cqBase.toNat % 32 = 0 ∧ CompletionRingOk c.cu c.cqCode
  rw [hc, hq, hb, hcb]
  exact ⟨c1, c2, c3, c4, hcu⟩

theorem SoundParts.enableFromStopped (h : SoundParts s) (he : s.engine = .ctlStopped) :
    SoundParts (enableFromStopped s) := by
  have hs : serving s = true := serving_iff.2 (.inr he)
  have h1 : SoundParts { s with engine := .on, control := { s.control with postStop := false } } :=
    h.with_engine hs (.inl rfl) rfl rfl rfl rfl (h.control.2.2.2 hs).2.2.2.2
  have h2 := h1.takeControl
  have hon := (takeControl_frame { s with engine := .on, control := { s.control with postStop := false } }).2.2.1
  exact (h2.tryPostControl (serving_iff.2 (.inl hon))).tryControlRead

theorem SoundParts.execEnable {w : Word} (h : SoundParts s) (he : execEnable w s = .next t) : SoundParts t := by
  obtain rfl := Host.Outcome.next.inj he
  refine h.tportWrite fun u hu hr hne => ?_
  have hs := hu.storeSizeCodes w
  simp only
  split
  · exact hs.enableFromOff hr ‹_›
  · exact hs.enableFromStopped ‹_›
  · exact hs
  · exact hs

theorem SoundParts.beginSoftReset (h : SoundParts s) (hr : s.rstAsserted = false) : SoundParts (beginSoftReset s) := by
  refine h.quiet rfl rfl (fun k => ?_) ⟨fun hx => ?_, fun hx => ?_⟩
    ⟨h.control.1, h.control.2.1, h.control.2.2.1, fun hx => ?_⟩ fun hx => absurd rfl hx
  · rw [Machine.beginSoftReset, getTenant_mapTenants]
    exact (h.tenants k).quiet_withdrawRefetch
  · have : s.rstAsserted = true := hx
    rw [hr] at this
    cases this
  · cases hx
  · cases hx

theorem SoundParts.execSoftReset {w : Word} (h : SoundParts s) (he : execSoftReset w s = .next t) : SoundParts t := by
  obtain rfl := Host.Outcome.next.inj he
  exact h.tportWrite fun u hu hr _ => ((hu.storeSizeCodes w).beginSoftReset hr).endResetIfDrained

theorem SoundParts.execSizeCodeStore {w : Word} (h : SoundParts s) (he : execSizeCodeStore w s = .next t) :
    SoundParts t := by
  obtain rfl := Host.Outcome.next.inj he
  exact h.tportWrite fun u hu _ _ => hu.storeSizeCodes w

/-- Bits 0 to 5 of the stored base stay 0 (R182). -/
theorem storeBase_aligned (b : Phys) (half : Half) (w : Word) : (storeBase b half w).toNat % 64 = 0 := by
  have hlow : ∀ (a : BitVec 8) (m : BitVec 26), (a ++ (m ++ (0 : BitVec 6)) : BitVec 40).toNat % 64 = 0 := by
    intro a m
    rw [BitVec.toNat_append, BitVec.toNat_append]
    simp only [BitVec.ofNat_eq_ofNat, BitVec.toNat_ofNat, Nat.zero_mod, Nat.or_zero]
    rw [Nat.shiftLeft_eq, Nat.shiftLeft_eq, show (64 : ℕ) = 2 ^ 6 from rfl, Nat.or_mod_two_pow]
    have h1 : a.toNat * 2 ^ (26 + 6) % 2 ^ 6 = 0 := by omega
    have h2 : m.toNat * 2 ^ 6 % 2 ^ 6 = 0 := by omega
    rw [h1, h2]
    rfl
  cases half <;> exact hlow _ _

theorem SoundParts.execControlRingBaseWrite {half : Half} {w : Word} (h : SoundParts s)
    (he : execControlRingBaseWrite half w s = .next t) : SoundParts t := by
  obtain rfl := Host.Outcome.next.inj he
  exact h.tportWrite fun u hu _ _ => hu.with_registers hu.control.1 hu.control.2.1 (storeBase_aligned _ _ _)

theorem SoundParts.execRegisterWriteOther {o : BitVec 8} {w : Word} (h : SoundParts s)
    (he : execRegisterWriteOther o w s = .next t) : SoundParts t := by
  obtain rfl := Host.Outcome.next.inj he
  exact h.tportWrite fun u hu _ _ => hu

theorem SoundParts.execTPortBadAccess {b : Bool} {o : BitVec 8} {n : Nat} (h : SoundParts s)
    (he : execTPortBadAccess b o n s = .next t) : SoundParts t := by
  obtain rfl := Host.Outcome.next.inj he
  split
  · exact h.with_idle _ _ _ _
  · exact h

/-! ## Resets (R18, R19, R162) -/

theorem SoundParts.execRstNAssert (he : execRstNAssert s = .next t) : SoundParts t := by
  obtain rfl := Host.Outcome.next.inj he
  exact .of_reset rfl rfl rfl rfl rfl (by simp [State.reset]) (by simp [State.reset]) (by simp [State.reset])

theorem SoundParts.execRstNRelease (h : SoundParts s) (he : execRstNRelease s = .next t) : SoundParts t := by
  obtain rfl := Host.Outcome.next.inj he
  exact h.quiet rfl rfl (fun k => (h.tenants k).quiet_refl) ⟨fun hx => (by cases hx), h.off.2⟩ h.control id

theorem SoundParts.execSoftResetEnd (h : SoundParts s) (he : execSoftResetEnd s = .next t) : SoundParts t := by
  obtain rfl := Host.Outcome.next.inj he
  split
  · exact h.resetBlocks
  · exact h

end
end Sys2Proof.Machine
end

section
set_option Elab.async false
/-!
# Fetch, timers and posts keep a sound state
-/

namespace Sys2Proof.Machine

section
variable {s t : State} {k : TenantId}

/-- A tenant with a transaction in flight is one of a part that is not OFF (R16). -/
theorem SoundParts.engine_ne_off_of_read (h : SoundParts s) (hr : (getTenant s k).chan.inFlight ≠ none) :
    s.engine ≠ .off := fun he => hr (by rw [(h.off.2 he).2.2.2 k]; rfl)

theorem SoundParts.engine_ne_off_of_post (h : SoundParts s) (hp : (getTenant s k).cu.post ≠ none) :
    s.engine ≠ .off := fun he => hp (by rw [(h.off.2 he).2.2.2 k]; rfl)

/-! ## The fetch unit -/

theorem SoundParts.execFetchReadIssue (h : SoundParts s) (he : execFetchReadIssue k s = .next t) : SoundParts t := by
  obtain rfl := Host.Outcome.next.inj he
  split
  · rename_i hf
    exact h.setTenant ((h.tenants k).quiet_issueFetch hf.2) (engine_ne_off_of_serving hf.1)
  · exact h

theorem SoundParts.execControlReadIssue (h : SoundParts s) (he : execControlReadIssue s = .next t) : SoundParts t := by
  obtain rfl := Host.Outcome.next.inj he
  exact h.tryControlRead

theorem SoundParts.dropTenantRead (h : SoundParts s) (he : s.engine ≠ .off) (k : TenantId) :
    SoundParts (dropTenantRead s k) := (h.setTenant (h.tenants k).quiet_dropRead he).endResetIfDrained

/-- The answer to a tenant's read: dropped while RESETTING, or what its outcome makes of the tenant. -/
theorem SoundParts.readAnswered {kd : ReadKind} {d : Bool} {f : FetchRead → Tenant} (h : SoundParts s)
    (hq : ∀ r, readInFlight (getTenant s k) kd d = some r → Quiet (getTenant s k) (f r)) :
    SoundParts (match readInFlight (getTenant s k) kd d with
      | none => s
      | some r => if s.engine = .resetting then Machine.dropTenantRead s k else Machine.setTenant s k (f r)) := by
  cases hr : readInFlight (getTenant s k) kd d with
  | none => exact h
  | some r =>
    have he : s.engine ≠ .off := h.engine_ne_off_of_read (k := k) (by simp [(readInFlight_eq_some_iff.1 hr).1])
    simp only
    split
    · exact h.dropTenantRead he k
    · exact h.setTenant (hq r hr) he

theorem SoundParts.execFetchReadAck {d : Record} (h : SoundParts s) (he : execFetchReadAck k d s = .next t) :
    SoundParts t := by
  obtain rfl := Host.Outcome.next.inj he
  exact h.readAnswered fun r hr => (h.tenants k).quiet_joinQueue (b := (getTenant s k).chan.stop) hr ⟨r.seq, .record d⟩ k

theorem SoundParts.execFetchReadError (h : SoundParts s) (he : execFetchReadError k s = .next t) : SoundParts t := by
  obtain rfl := Host.Outcome.next.inj he
  exact h.readAnswered fun r hr => (h.tenants k).quiet_joinQueue (b := true) hr ⟨r.seq, .failed⟩ k

theorem SoundParts.execRefetchAck {d : Record} (h : SoundParts s) (he : execRefetchAck k d s = .next t) :
    SoundParts t := by
  obtain rfl := Host.Outcome.next.inj he
  exact h.readAnswered fun r hr => (h.tenants k).quiet_refetched hr k d

theorem SoundParts.execRefetchError (h : SoundParts s) (he : execRefetchError k s = .next t) : SoundParts t := by
  obtain rfl := Host.Outcome.next.inj he
  exact h.readAnswered fun r hr => (h.tenants k).quiet_refetchFailed hr k

theorem SoundParts.execDiscardedReadAnswer {ok : Bool} (h : SoundParts s)
    (he : execDiscardedReadAnswer k ok s = .next t) : SoundParts t := by
  obtain rfl := Host.Outcome.next.inj he
  split
  · exact h
  · rename_i r hr
    have he : s.engine ≠ .off := h.engine_ne_off_of_read (k := k) (by simp [hr])
    split
    · split
      · exact h.dropTenantRead he k
      · exact h.setTenant (h.tenants k).quiet_endDiscardedRead he
    · exact h

/-- The control context is not used in OFF (R16). -/
theorem SoundParts.engine_ne_off_of_control (h : SoundParts s) (hc : s.control ≠ {}) : s.engine ≠ .off :=
  fun he => hc (h.off.2 he).1

theorem SoundParts.execControlFetchAck {d : Record} (h : SoundParts s) (he : execControlFetchAck d s = .next t) :
    SoundParts t := by
  obtain rfl := Host.Outcome.next.inj he
  split
  · exact h
  · rename_i r hr
    have he : s.engine ≠ .off := h.engine_ne_off_of_control fun hc => by simp [hc] at hr
    split
    · exact SoundParts.endResetIfDrained (h.with_control he h.control.2.2.2)
    · exact SoundParts.takeControl (h.with_control he h.control.2.2.2)

theorem SoundParts.execControlFetchError (h : SoundParts s) (he : execControlFetchError s = .next t) :
    SoundParts t := by
  obtain rfl := Host.Outcome.next.inj he
  split
  · exact h
  · rename_i r hr
    have he : s.engine ≠ .off := h.engine_ne_off_of_control fun hc => by simp [hc] at hr
    split
    · exact SoundParts.endResetIfDrained (h.with_control he h.control.2.2.2)
    · rename_i hne
      have hs : serving s = true := serving_iff.2 (by cases hx : s.engine <;> simp_all)
      exact h.with_engine hs (by split <;> simp_all [serving_iff]) rfl rfl rfl rfl (h.control.2.2.2 hs).2.2.2.2

/-! ## Posts -/

theorem SoundParts.execPostIssue {c : Ctx} (h : SoundParts s) (he : execPostIssue c s = .next t) : SoundParts t := by
  obtain rfl := Host.Outcome.next.inj he
  split
  · rename_i hs
    cases c with
    | control => exact h.tryPostControl hs
    | tenant k => exact h.setTenant (h.tenants k).quiet_tryPost (engine_ne_off_of_serving hs)
  · exact h

theorem SoundParts.dropTenantPost (h : SoundParts s) (he : s.engine ≠ .off) (k : TenantId) :
    SoundParts (dropTenantPost s k) := (h.setTenant (h.tenants k).quiet_dropPost he).endResetIfDrained

theorem SoundParts.engine_ne_off_of_postInFlight {c : Completion} (h : SoundParts s)
    (hc : postInFlight (getTenant s k).cu = some c) : s.engine ≠ .off := by
  refine h.engine_ne_off_of_post (k := k) fun hn => ?_
  simp [postInFlight, hn] at hc

theorem SoundParts.tenantPostAcked (h : SoundParts s) (k : TenantId) : SoundParts (tenantPostAcked s k) := by
  unfold Machine.tenantPostAcked
  split
  · exact h
  · rename_i c hc
    have he := h.engine_ne_off_of_postInFlight hc
    split
    · exact h.dropTenantPost he k
    · exact h.setTenant ((h.tenants k).quiet_ackTenantPost (postInFlight_eq_some_iff.1 hc)) he

theorem SoundParts.dropControlPost (h : SoundParts s) (he : s.engine ≠ .off) : SoundParts (dropControlPost s) :=
  SoundParts.endResetIfDrained (h.with_control he fun hs =>
    let ⟨h1, h2, h3, h4, h5⟩ := h.control.2.2.2 hs
    ⟨h1, h2, h3, h4, h5.mono le_rfl (by simp [livePost])⟩)

theorem SoundParts.execPostAck {c : Ctx} (h : SoundParts s) (he : execPostAck c s = .next t) : SoundParts t := by
  obtain rfl := Host.Outcome.next.inj he
  cases c with
  | tenant k => exact h.tenantPostAcked k
  | control =>
    simp only
    split
    · exact h
    · rename_i p hp
      have he : s.engine ≠ .off := h.engine_ne_off_of_control fun hc => by simp [hc, postInFlight] at hp
      split
      · exact h.dropControlPost he
      · refine SoundParts.takeControl (h.with_control he fun hs => ?_)
        obtain ⟨h1, h2, h3, h4, h5⟩ := h.control.2.2.2 hs
        exact ⟨h1, h2, h3, h4, h5.acknowledge h2 (postInFlight_eq_some_iff.1 hp).2⟩

theorem SoundParts.execRecoveryAfterPost (h : SoundParts s) (he : execRecoveryAfterPost k s = .next t) :
    SoundParts t := by
  obtain rfl := Host.Outcome.next.inj he
  simp only
  split
  · exact h.tenantPostAcked k
  · exact h

theorem SoundParts.execPostError {c : Ctx} (h : SoundParts s) (he : execPostError c s = .next t) : SoundParts t := by
  obtain rfl := Host.Outcome.next.inj he
  cases c with
  | tenant k =>
    simp only
    split
    · exact h
    · rename_i c hc
      have he := h.engine_ne_off_of_postInFlight hc
      split
      · exact h.dropTenantPost he k
      · exact h.setTenant ((h.tenants k).quiet_failTenantPost (postInFlight_eq_some_iff.1 hc)) he
  | control =>
    simp only
    split
    · exact h
    · rename_i p hp
      have he : s.engine ≠ .off := h.engine_ne_off_of_control fun hc => by simp [hc, postInFlight] at hp
      split
      · exact h.dropControlPost he
      · have hs : serving s = true := serving_iff.2 (by cases hx : s.engine <;> simp_all)
        exact h.with_engine hs (by split <;> simp_all [serving_iff]) rfl rfl rfl rfl
          ((h.control.2.2.2 hs).2.2.2.2.mono le_rfl (by simp [livePost]))

theorem SoundParts.execDiscardedPostAnswer {ok : Bool} (h : SoundParts s)
    (he : execDiscardedPostAnswer k ok s = .next t) : SoundParts t := by
  obtain rfl := Host.Outcome.next.inj he
  split
  · exact h
  · rename_i p hp
    split
    · exact h.dropTenantPost (h.engine_ne_off_of_post (k := k) (by simp [hp])) k
    · exact h

/-! ## The timer unit -/

/-- A timebase step (R133). -/
theorem SoundParts.timebaseStep (h : SoundParts s) (f : TenantId → Bool) : SoundParts (timebaseStep s f) := by
  have hq : ∀ k, Quiet (getTenant s k) (getTenant (Machine.timebaseStep s f) k) := fun k => by
    rw [getTenant_timebaseStep]
    exact (h.tenants k).quiet_timebaseTenant s.latches (f k)
  refine h.quiet rfl rfl hq ⟨h.off.1, fun hx => ?_⟩ h.control id
  obtain ⟨o1, o2, o3, o4⟩ := h.off.2 hx
  refine ⟨o1, o2, o3, fun k => ?_⟩
  have hw : ∀ t : Tenant, t.wait = .stopped → t.waitTimer = none → t.holdoffTimer = none →
      timebaseTenant s.latches (arrivalMeetsExpiry s.latches t && f k) k t = t := by
    intro t h1 h2 h3
    obtain ⟨⟩ := t
    subst h1 h2 h3
    simp [timebaseTenant, arrivalMeetsExpiry, tickTimer, takeArrivals, expireWait, expireHoldoff]
  rw [getTenant_timebaseStep, hw _ (by rw [o4 k]; rfl) (by rw [o4 k]; rfl) (by rw [o4 k]; rfl)]
  exact o4 k

theorem SoundParts.execTimebaseStep (h : SoundParts s) (he : execTimebaseStep s = .next t) : SoundParts t := by
  obtain rfl := Host.Outcome.next.inj he
  split
  · exact h.timebaseStep _
  · split
    · exact h
    · exact h.with_idle _ _ _ _

theorem SoundParts.execArrival {l : Line} (h : SoundParts s) (he : execArrival l s = .next t) : SoundParts t := by
  obtain rfl := Host.Outcome.next.inj he
  split
  · exact h.timebaseStep _
  · exact h

theorem SoundParts.execWaitTimeout (h : SoundParts s) (he : execWaitTimeout k s = .next t) : SoundParts t := by
  obtain rfl := Host.Outcome.next.inj he
  split
  · exact h.timebaseStep _
  · exact h

theorem SoundParts.execHoldoffExpiry (h : SoundParts s) (he : execHoldoffExpiry k s = .next t) : SoundParts t := by
  obtain rfl := Host.Outcome.next.inj he
  split
  · exact h.timebaseStep _
  · exact h

theorem SoundParts.execSyncEdge {l : Line} (h : SoundParts s) (he : execSyncEdge l s = .next t) : SoundParts t := by
  obtain rfl := Host.Outcome.next.inj he
  split
  · exact h
  · exact h.with_idle _ _ _ _

theorem SoundParts.execWait (h : SoundParts s) (he : execWait k s = .next t) : SoundParts t := by
  obtain rfl := Host.Outcome.next.inj he
  simp only
  split
  · split
    · exact h.tenantPostAcked k
    · rw [(h.tenants k).beginWait_eq, setTenant_getTenant]
      exact h
  · exact h

end
end Sys2Proof.Machine
end

section
set_option Elab.async false
/-!
# Grants and the records that end within their first grant keep a sound state
-/

namespace Sys2Proof.Machine

section
variable {s t : State} {k : TenantId}

/-! ## The arbiter (R81, R82) -/

/-- A grant request sent or dropped while the unit is FREE. -/
theorem SoundParts.with_request (h : SoundParts s) (hs : serving s = true) (hp : s.tu.phase = .free)
    (g : Option TenantId) (n : Nat) : SoundParts { s with grantInProgress := g, draws := n } := by
  have he := engine_ne_off_of_serving hs
  obtain ⟨g1, g2, _, g4, g5, g6, g7⟩ := h.grant
  exact ⟨h.tenants, ⟨g1, g2, fun _ => hp, g4, g5, g6, g7⟩, h.off.of_engine_ne rfl he he, h.control, h.places, h.unit,
    h.run⟩

theorem continuedPlan_of_none {t : Tenant} (h : t.progress = none) : continuedPlan t = none := by
  simp [continuedPlan, h]

/-- A stopped record continues under the plan it stopped with (R96). -/
theorem continuedPlan_eq {t : Tenant} {g : Progress} {p : Plan} (hg : t.progress = some g) (hp : PlanOfTenant t p)
    (hcs : p.cs = g.cursorAtStart.getD 0) : continuedPlan t = some p := by
  obtain ⟨q, r, hc, hplan⟩ := hp
  simp only [continuedPlan, hg, hc]
  rw [← hcs]
  exact hplan

/-- Only a record without a window has no overrun policy. -/
theorem PlanOfTenant.policy_ne_none {t : Tenant} {p : Plan} (h : PlanOfTenant t p) (hk : p.kind = .put ∨ p.kind = .get) :
    p.policy ≠ .none := by
  obtain ⟨q, r, _, hplan⟩ := h
  have hfits := policyFits_of_planOf hplan
  rcases hk with hk | hk <;> simp only [PolicyFits, hk] at hfits <;> rintro hx <;> simp [hx] at hfits

/-- The cursor counts a prefix as it counts the prefix's in-window elements. -/
theorem CursorAt.countP_range {t : Tenant} {p : Plan} {n : Nat} (h : CursorAt t p n) (hp : PlanOfTenant t p)
    (hn : n ≤ takeUps p) : CursorAt t p ((List.range n).countP (inWindow p)) := by
  intro hk
  obtain ⟨w, hw, hcs, hcur⟩ := h hk
  exact ⟨w, hw, hcs, hcur.trans
    (cursorAdvanced_countP_range (hp.policy_ne_none hk) (hn.trans (takeUps_le_count p))).symm⟩

theorem CursorAt.of_countP_range {t : Tenant} {p : Plan} {n : Nat}
    (h : CursorAt t p ((List.range n).countP (inWindow p))) (hp : PlanOfTenant t p) (hn : n ≤ takeUps p) :
    CursorAt t p n := by
  intro hk
  obtain ⟨w, hw, hcs, hcur⟩ := h hk
  exact ⟨w, hw, hcs, hcur.trans
    (cursorAdvanced_countP_range (hp.policy_ne_none hk) (hn.trans (takeUps_le_count p)))⟩

/-- The unit at a grant has nothing outstanding and no element taken up beyond the prefix. -/
theorem unitRows_granted {u : TransferUnit} (hw : u.wraps ≤ Config.wrapsMax) (hd : u.done = u.nextOrd)
    (he : u.ended = []) (ho : u.outstanding = []) (hp : u.phase ≠ .draining .halt) (hf : u.faulting = none) :
    UnitRows u :=
  ⟨hw, hd.le, by simp [he], by simp [he], by simp [ho], by simp [ho], by simp [hp, hf], by simp [ho], by simp [ho]⟩

theorem SoundParts.takeGrant (h : SoundParts s) (hs : serving s = true) (hp : s.tu.phase = .free)
    (hr : (getTenant s k).state = .ready) : SoundParts (takeGrant s k) := by
  have he := engine_ne_off_of_serving hs
  have hget := (takeGrant_frame s k).2
  have hnot : ∀ j, ¬Runs (getTenant s j) := h.not_runs_of_free hp
  have hself : (getTenant (Machine.takeGrant s k) k) = grantedTenant (getTenant s k) := by rw [hget, if_pos rfl]
  have hone : ∀ j, Runs (getTenant (Machine.takeGrant s k) j) → j = k := by
    intro j hj
    rw [hget] at hj
    split at hj
    · assumption
    · exact absurd hj (hnot j)
  have hstop := (h.tenants k).stopped
  have hother : ∀ j, (getTenant (Machine.takeGrant s k) j).state ≠ .detaching := by
    intro j hj
    have hjk := hone j (.inr hj)
    rw [hjk, hself] at hj
    simp [grantedTenant] at hj
  refine ⟨fun j => ?_, ⟨fun hx => ?_, fun hx => ?_, fun hx => absurd rfl hx, rfl, fun j hj => ?_,
    fun j hj => absurd hj (hother j), fun j hj => .inl ?_⟩, h.off.of_engine_ne rfl he he, h.control,
    by show ([] : List Elem).length ≤ 8; simp, ?_, ?_⟩
  · rw [hget]
    split
    · exact (h.tenants k).tenantOk_granted hr
    · exact h.tenants j
  · cases hx
  · cases hx
  · exact ⟨congrArg some (hone j (.inl hj)).symm, by show Phase.issuing ≠ _; simp, by show Phase.issuing ≠ _; simp⟩
  · obtain rfl : k = j := Option.some.inj hj
    rw [hself]; rfl
  · refine unitRows_granted ?_ rfl rfl rfl (by show Phase.issuing ≠ _; simp) rfl
    show (match (getTenant s k).progress with | some p => p.wraps | none => 0) ≤ _
    cases hg : (getTenant s k).progress with
    | none => simp
    | some g => exact (hstop g hg (.inl hr)).1
  · rw [runInv_iff]
    intro j hj
    obtain rfl : k = j := Option.some.inj hj
    rw [hself]
    cases hg : (getTenant s k).progress with
    | none =>
      refine ⟨fun _ => ⟨?_, rfl⟩, fun p hplan => ?_⟩
      · show (match (getTenant s k).progress with | some p => p.done | none => 0) = 0
        rw [hg]
      · have : continuedPlan (getTenant s k) = some p := hplan
        rw [continuedPlan_of_none hg] at this
        cases this
    | some g =>
      obtain ⟨_, p, hpl, hcs, hdone, hcur⟩ := hstop g hg (.inl hr)
      have hcont := continuedPlan_eq hg hpl hcs
      have hd : (grantedUnit k (getTenant s k)).done = g.done := by simp [grantedUnit, hg]
      have hn : (grantedUnit k (getTenant s k)).nextOrd = g.done := by simp [grantedUnit, hg]
      refine ⟨fun hx => ?_, fun q hq => ?_⟩
      · have : continuedPlan (getTenant s k) = none := hx
        rw [hcont] at this
        cases this
      · obtain rfl : q = p := Option.some.inj (hq.symm.trans hcont)
        refine ⟨hpl, hn.trans_le hdone, fun f hf => (by cases hf), fun e he => (by cases he), ?_,
          fun _ _ _ o ho1 ho2 => ?_⟩
        · have : endedOrds (Machine.takeGrant s k).tu = List.range g.done := by
            show List.range (grantedUnit k (getTenant s k)).done ++ [] = _
            rw [hd, List.append_nil]
          rw [this]
          exact hcur.countP_range hpl hdone
        · have h1 : (grantedUnit k (getTenant s k)).done ≤ o := ho1
          have h2 : o < (grantedUnit k (getTenant s k)).nextOrd := ho2
          omega

theorem SoundParts.execGrant (h : SoundParts s) (he : execGrant s = .next t) : SoundParts t := by
  rcases execGrant_cases he with rfl | ⟨hs, hp, ⟨k, _, hr, rfl⟩ | ⟨_, rfl⟩ | ⟨k, hk, rfl | rfl⟩⟩
  · exact h
  · exact h.takeGrant hs hp hr
  · exact h.with_request hs hp none s.draws
  · exact h.with_request hs hp _ _
  · exact (h.with_request hs hp none (s.draws + 1)).takeGrant hs hp (nextGrant_ready hk)

/-! ## Records at their first grant (R58) -/

/-- What `freshGrant` says of the granted tenant. -/
theorem SoundParts.of_freshGrant {kd : Kind} {r : Record} (hf : freshGrant s kd = some (k, r)) :
    s.tu.granted = some k ∧ (getTenant s k).state = .running ∧ (getTenant s k).progress = none :=
  let ⟨_, _, _, hk, _, hr, hg, _⟩ := freshGrant_eq_some_iff.1 hf
  ⟨hk, hr, hg⟩

/-- A refused record (R59). -/
theorem SoundParts.refuseGrant {kd : Kind} {r : Record} (h : SoundParts s) (hf : freshGrant s kd = some (k, r))
    (reason : Reason) : SoundParts (refuseGrant s k reason) := by
  obtain ⟨hk, hr, hg⟩ := SoundParts.of_freshGrant hf
  exact h.endGrant hk ((h.tenants k).tenantOk_refuse hr hg reason) (not_runs_refuseRecord _ _ _)

/-- A zero-element record that ends OK with these tables (R40, R44). -/
theorem SoundParts.finishZeroElement {kd : Kind} {r : Record} {sl : Slots} {w : Option Window} (h : SoundParts s)
    (hf : freshGrant s kd = some (k, r)) (hw : WindowRow { getTenant s k with surfaces := sl, window := w })
    (aux : Word) : SoundParts (finishZeroElement s k { getTenant s k with surfaces := sl, window := w } aux) := by
  obtain ⟨hk, hr, hg⟩ := SoundParts.of_freshGrant hf
  refine h.endGrant hk (TenantOk.tenantOk_endRun ((h.tenants k).tenantOk_tables (.inl hr) hw) hr rfl) ?_
  simp [Runs]

theorem slotGet_slotSet (sl : Slots) (i j : Fin 4) (f : Surface) :
    slotGet (slotSet sl i f) j = if j = i then some f else slotGet sl j := by
  fin_cases i <;> fin_cases j <;> rfl

/-- A surface that passes the checks of R39 has its row. -/
theorem surfaceRow_of_surfaceCheck {f : Surface} (h : surfaceCheck f = none) : SurfaceRow f := by
  unfold surfaceCheck at h
  split_ifs at h with h1 h2 h3
  simp only [sizeValid, Bool.or_eq_true, Bool.not_eq_true', beq_iff_eq, decide_eq_true_eq, not_or, Bool.or_eq_false_iff,
    beq_eq_false_iff_ne, not_and, not_not, Config.logicalBytes] at h1 h2 h3
  obtain ⟨⟨⟨⟨⟨⟨h1, h4⟩, h5⟩, h6⟩, h7⟩, h8⟩, h9⟩ := h1
  refine ⟨?_, by omega, by omega, by omega, by omega, by omega, by omega, by omega, by omega, by omega⟩
  tauto

/-- A slot defined anew, with the window on it closed (R40, R41). -/
theorem WindowRow.defineSurface {t : Tenant} {slot : Fin 4} {f : Surface} (h : WindowRow t)
    (hf : surfaceCheck f = none) : WindowRow (defineSurface t slot f) := by
  refine ⟨fun i g hg => ?_, fun w hw => ?_⟩
  · simp only [Machine.defineSurface, slotGet_slotSet] at hg
    split at hg
    · obtain rfl := Option.some.inj hg
      exact surfaceRow_of_surfaceCheck hf
    · exact h.1 i g hg
  · simp only [Machine.defineSurface] at hw
    split at hw
    · rename_i v hv
      split at hw
      · cases hw
      · rename_i hslot
        obtain rfl := Option.some.inj hw
        obtain ⟨g, hg, hrest⟩ := h.2 v hv
        exact ⟨g, by simp only [Machine.defineSurface, slotGet_slotSet, hslot, if_false, hg], hrest⟩
    · cases hw

theorem SoundParts.execSurface (h : SoundParts s) (he : execSurface s = .next t) : SoundParts t := by
  obtain rfl := Host.Outcome.next.inj he
  split
  · exact h
  · rename_i k r hf
    split
    · exact h.refuseGrant hf _
    · split
      · exact h.refuseGrant hf _
      · rename_i hcheck
        exact h.finishZeroElement hf ((h.tenants k).windows.defineSurface hcheck) 0

/-- A window as WINDOW opens it: its corners in order, its cursor at 0, no held value (R43, R44). -/
theorem windowOf_spec {r : Record} {w : Window} (h : windowOf r = some w) :
    w.x0 ≤ w.x1 ∧ w.y0 ≤ w.y1 ∧ w.cursor = 0 := by
  unfold windowOf at h
  split at h
  · split_ifs at h with hc
    obtain rfl := Option.some.inj h
    rw [not_or, Nat.not_lt, Nat.not_lt] at hc
    exact ⟨hc.1, hc.2, rfl⟩
  · cases h

theorem SoundParts.execWindow (h : SoundParts s) (he : execWindow s = .next t) : SoundParts t := by
  obtain rfl := Host.Outcome.next.inj he
  split
  · exact h
  · rename_i k r hf
    split
    · exact h.refuseGrant hf _
    · rename_i w hw
      split
      · exact h.refuseGrant hf _
      · rename_i f hsurf
        split
        · exact h.refuseGrant hf _
        · rename_i hfit
          obtain ⟨hx, hy, hc⟩ := windowOf_spec hw
          refine h.finishZeroElement hf (sl := (getTenant s k).surfaces) (w := some w)
            ⟨(h.tenants k).windows.1, fun v hv => ?_⟩ 0
          obtain rfl : w = v := Option.some.inj hv
          exact ⟨f, hsurf, hx, by omega, hy, by omega, by omega⟩

theorem SoundParts.execMark (h : SoundParts s) (he : execMark s = .next t) : SoundParts t := by
  obtain rfl := Host.Outcome.next.inj he
  split
  · exact h
  · rename_i k r hf
    exact h.finishZeroElement hf (h.tenants k).windows 0

theorem SoundParts.execProbe (h : SoundParts s) (he : execProbe s = .next t) : SoundParts t := by
  obtain rfl := Host.Outcome.next.inj he
  split
  · exact h
  · rename_i k r hf
    simp only
    split
    · exact h.refuseGrant hf _
    · exact h.finishZeroElement hf (h.tenants k).windows _

/-! ## Data records at their first grant (R82) -/

/-- A data record begins, with the cursor where its window has it. -/
theorem SoundParts.startData {kd : Kind} {r : Record} {p : Plan} (h : SoundParts s)
    (hf : freshGrant s kd = some (k, r)) (hp : planOf (getTenant s k) r p.cs = some p)
    (hcur : ∀ w, p.kind = .put ∨ p.kind = .get → (getTenant s k).window = some w → p.cs = w.cursor) :
    SoundParts (startData s p) := by
  obtain ⟨hs, hph, hplan, hk, ⟨q, hc⟩, hr, hg, _⟩ := freshGrant_eq_some_iff.1 hf
  obtain ⟨hnone, hsome⟩ := runInv_iff.1 h.run k hk
  obtain ⟨hnext, hout⟩ := hnone hplan
  have hfault : s.tu.faulting = none := by
    have := h.unit.halted
    simpa [hph] using this
  have hdone : s.tu.done = 0 := by have := h.unit.done; omega
  have hended : s.tu.ended = [] := by
    refine List.eq_nil_iff_forall_not_mem.2 fun o ho => ?_
    have := (h.unit.ended o ho).2
    omega
  have he := h.engine_ne_off_of_granted hk
  obtain ⟨g1, g2, g3, g4, g5, g6, g7⟩ := h.grant
  have hfree := h.phase_ne_free hk
  refine ⟨h.tenants, ⟨fun hx => absurd hx hfree, g2, g3, g4, g5, g6, g7⟩, h.off.of_engine_ne rfl he he, h.control,
    h.places, ⟨h.unit.wraps, h.unit.done, h.unit.endedRise, h.unit.ended, h.unit.rise, h.unit.elems, h.unit.halted,
    h.unit.faulted, h.unit.aborted⟩, ?_⟩
  rw [runInv_iff]
  intro j hj
  obtain rfl : k = j := Option.some.inj (hk.symm.trans hj)
  refine ⟨fun hx => (by cases hx), fun p' hp' => ?_⟩
  obtain rfl : p = p' := Option.some.inj hp'
  have hnext' : (Machine.startData s p).tu.nextOrd = 0 := hnext
  refine ⟨⟨q, r, hc, hp⟩, by omega, ?_, ?_, ?_, fun _ _ _ o _ ho => absurd ho (by omega)⟩
  · intro f hx
    have : s.tu.faulting = some f := hx
    rw [hfault] at this
    cases this
  · intro e hx
    have : e ∈ s.tu.outstanding := hx
    rw [hout] at this
    cases this
  · have hzero : endedOrds (Machine.startData s p).tu = [] := by
      show List.range s.tu.done ++ s.tu.ended = []
      simp [hdone, hended]
    rw [hzero]
    intro hkind
    obtain ⟨_, w, hw, _⟩ := planOf_window hp hkind
    obtain ⟨f, _, _, _, _, _, hle⟩ := (h.tenants k).windows.2 w hw
    refine ⟨w, hw, ?_, ?_⟩
    · rw [hcur w hkind hw]; exact hle
    · rw [List.countP_nil, cursorAdvanced_zero, hcur w hkind hw]

theorem planOf_put {t : Tenant} {r : Record} {w : Window} {f : Surface} (hk : kindOf r = some .put)
    (hw : windowSurface t = some (w, f)) (cs : Nat) : planOf t r cs = some (planPut r w f cs) := by
  simp [planOf, hk, hw]

theorem planOf_get {t : Tenant} {r : Record} {w : Window} {f : Surface} (hk : kindOf r = some .get)
    (hw : windowSurface t = some (w, f)) (cs : Nat) : planOf t r cs = some (planGet r w f cs) := by
  simp [planOf, hk, hw]

theorem SoundParts.execPut (h : SoundParts s) (he : execPut s = .next t) : SoundParts t := by
  obtain rfl := Host.Outcome.next.inj he
  split
  · exact h
  · rename_i k r hf
    simp only
    split
    · exact h.refuseGrant hf _
    · exact h.refuseGrant hf _
    · rename_i w f _ hw
      obtain ⟨hk, hr, hg⟩ := SoundParts.of_freshGrant hf
      split
      · exact h.endGrant hk ((h.tenants k).tenantOk_endRun hr rfl) (by simp [Runs])
      · have hkind := (freshGrant_eq_some_iff.1 hf).2.2.2.2.2.2.2
        refine h.startData hf (planOf_put hkind hw _) fun w' _ hw' => ?_
        obtain rfl : w = w' := Option.some.inj ((windowSurface_eq_some_iff.1 hw).1.symm.trans hw')
        rfl

theorem SoundParts.execGet (h : SoundParts s) (he : execGet s = .next t) : SoundParts t := by
  obtain rfl := Host.Outcome.next.inj he
  split
  · exact h
  · rename_i k r hf
    simp only
    split
    · exact h.refuseGrant hf _
    · exact h.refuseGrant hf _
    · rename_i w f _ hw
      have hkind := (freshGrant_eq_some_iff.1 hf).2.2.2.2.2.2.2
      refine h.startData hf (planOf_get hkind hw _) fun w' _ hw' => ?_
      obtain rfl : w = w' := Option.some.inj ((windowSurface_eq_some_iff.1 hw).1.symm.trans hw')
      rfl

theorem SoundParts.execCopy (h : SoundParts s) (he : execCopy s = .next t) : SoundParts t := by
  obtain rfl := Host.Outcome.next.inj he
  split
  · exact h
  · rename_i k r hf
    have hkind := (freshGrant_eq_some_iff.1 hf).2.2.2.2.2.2.2
    simp only
    split
    · rename_i a b o ha hb ho
      split
      · exact h.refuseGrant hf _
      · split
        · rename_i src dst hsrc hdst
          split
          · exact h.refuseGrant hf _
          · split
            · exact h.refuseGrant hf _
            · exact h.startData hf (by simp [planOf, hkind, ha, hb, ho, hsrc, hdst]) fun w hx => by
                simp [planCopy] at hx
        · exact h.refuseGrant hf _
    · exact h.refuseGrant hf _

theorem SoundParts.execFill (h : SoundParts s) (he : execFill s = .next t) : SoundParts t := by
  obtain rfl := Host.Outcome.next.inj he
  split
  · exact h
  · rename_i k r hf
    have hkind := (freshGrant_eq_some_iff.1 hf).2.2.2.2.2.2.2
    simp only
    split
    · exact h.refuseGrant hf _
    · rename_i a ha
      split
      · exact h.refuseGrant hf _
      · split
        · exact h.refuseGrant hf _
        · rename_i f hsurf
          split
          · exact h.refuseGrant hf _
          · exact h.startData hf (by simp [planOf, hkind, ha, hsurf]) fun w hx => by simp [planFill] at hx

end
end Sys2Proof.Machine
end

section
set_option Elab.async false
/-!
# The element pipeline keeps a sound state (R86 to R92, R183, R184)
-/

namespace Sys2Proof.Machine

/-- A sound state with this tenant granted under this plan. -/
structure SoundUnder (s : State) (k : TenantId) (p : Plan) : Prop where
  sound : SoundParts s
  granted : s.tu.granted = some k
  plan : s.tu.plan = some p

section
variable {s t : State} {k : TenantId} {p : Plan}

theorem SoundParts.under (h : SoundParts s) (hr : runningPlan s = some (k, p)) : SoundUnder s k p :=
  ⟨h, (runningPlan_eq_some_iff.1 hr).1, (runningPlan_eq_some_iff.1 hr).2⟩

theorem SoundUnder.rows (h : SoundUnder s k p) : RunRows (s.engine ≠ .resetting) (getTenant s k) p s.tu :=
  h.sound.runRows h.granted h.plan

theorem SoundUnder.runs (h : SoundUnder s k p) : Runs (getTenant s k) := h.sound.runs_of_granted h.granted

/-- A step of the unit, and of the tables of the granted tenant. -/
theorem SoundUnder.step {x : Tenant} {u : TransferUnit} (h : SoundUnder s k p) (hx : TenantOk x)
    (hs : x.state = (getTenant s k).state) (hu : SameGrant s.tu u) (hlen : u.outstanding.length ≤ 8)
    (hrows : UnitRows u) (hrun : RunRows (s.engine ≠ .resetting) x p u) :
    SoundUnder { setTenant s k x with tu := u } k p :=
  ⟨h.sound.stepUnit h.granted h.plan hx hs hu hlen hrows hrun, hu.granted.trans h.granted, hu.plan.trans h.plan⟩

theorem SoundUnder.stepUnit {u : TransferUnit} (h : SoundUnder s k p) (hu : SameGrant s.tu u)
    (hlen : u.outstanding.length ≤ 8) (hrows : UnitRows u)
    (hrun : RunRows (s.engine ≠ .resetting) (getTenant s k) p u) : SoundUnder { s with tu := u } k p :=
  ⟨h.sound.stepUnitOnly h.granted h.plan hu hlen hrows hrun, hu.granted.trans h.granted, hu.plan.trans h.plan⟩

/-- An outstanding element lies below the end of the record. -/
theorem SoundUnder.ord_lt (h : SoundUnder s k p) {e : Elem} (he : e ∈ s.tu.outstanding) : e.ord < takeUps p := by
  cases hf : e.fill with
  | true => exact (h.rows.fills e he hf).1
  | false => exact lt_of_lt_of_le ((h.sound.unit.elems e he).2.2.1 hf) h.rows.within

/-! ## Faults -/

/-- A translation faults with a status of section 5.4. -/
theorem isFaultStatus_of_translate {seg : Segment} {a : Nat} {acc : Access} {st : Status}
    (h : translateAccess seg a acc = .fault st) : isFaultStatus st = true := by
  unfold translateAccess at h
  simp only at h
  split at h
  · cases h; rfl
  · cases acc <;> simp only at h <;> split at h <;> cases h <;> rfl

theorem SameGrant.recordFault {u v : TransferUnit} {f : Faulting} (h : SameGrant u v)
    (hf : isFaultStatus f.status = true) : SameGrant u (recordFault v f) := by
  by_cases ha : v.phase = .draining .abort
  · rw [recordFault_of_abort ha]; exact h
  · rw [recordFault_of_not_abort ha]
    refine ⟨h.granted, h.plan, by simp, ⟨by simp, fun hx => absurd (h.abort.2 hx) ha⟩, ?_⟩
    have hst := h.statuses
    rcases lowestFault_cases v f with hl | ⟨hl, _⟩
    · simpa [hl] using hf
    · rw [hl] at hst; exact hst

theorem length_recordFault_le (u : TransferUnit) (f : Faulting) :
    (recordFault u f).outstanding.length ≤ u.outstanding.length := by
  by_cases ha : u.phase = .draining .abort
  · rw [recordFault_of_abort ha]
  · rw [recordFault_of_not_abort ha]; exact List.length_filter_le _ _

/-- A fault of an element that is not, or no longer, outstanding. -/
theorem SoundUnder.fault {out : List Elem} {f : Faulting} (h : SoundUnder s k p) (hs : out.Sublist s.tu.outstanding)
    (hne : ∀ e ∈ out, e.ord ≠ f.ord) (hlt : f.ord < takeUps p) (hf : isFaultStatus f.status = true) :
    SoundUnder { s with tu := recordFault { s.tu with outstanding := out } f } k p := by
  have hsub : RunRows False (getTenant s k) p { s.tu with outstanding := out } :=
    RunRows.sublist (u := s.tu) ⟨h.rows.plan, h.rows.within, h.rows.faultWithin, h.rows.fills, h.rows.cursor,
      fun hx => hx.elim⟩ hs fun hx => hx.elim
  have hrows := h.sound.unit.sublist hs
  have hlen := hs.length_le
  refine h.stepUnit (SameGrant.recordFault (h.sound.sameGrant rfl rfl rfl rfl) hf)
    ((length_recordFault_le _ _).trans (hlen.trans h.sound.places)) (hrows.recordFault hne) (hsub.recordFault hlt)

/-! ## The window's held value and cursor -/

theorem WindowRow.setHeld {t : Tenant} (h : WindowRow t) (v : Option Word) : WindowRow (setHeld t v) := by
  refine ⟨h.1, fun w hw => ?_⟩
  obtain ⟨w', hw', rfl⟩ := Option.map_eq_some_iff.1 hw
  exact h.2 w' hw'

theorem TenantOk.tenantOk_setHeld {t : Tenant} (h : TenantOk t) (hs : Runs t) (v : Option Word) :
    TenantOk (setHeld t v) := h.tenantOk_tables (f := t.surfaces) hs (h.windows.setHeld v)

theorem RunRows.setHeld {live : Prop} {t : Tenant} {u : TransferUnit} (h : RunRows live t p u) (v : Option Word) :
    RunRows live (setHeld t v) p u := by
  refine ⟨h.plan.map_window fun w => rfl, h.within, h.faultWithin, h.fills, fun hk => ?_, h.covered⟩
  obtain ⟨w, hw, hcs, hcur⟩ := h.cursor hk
  exact ⟨{ w with held := v }, by simp [Machine.setHeld, hw], hcs, hcur⟩

theorem SoundUnder.setHeld (h : SoundUnder s k p) (v : Option Word) :
    SoundUnder (setTenant s k (setHeld (getTenant s k) v)) k p :=
  h.step ((h.sound.tenants k).tenantOk_setHeld h.runs v) rfl (h.sound.sameGrant rfl rfl rfl rfl) h.sound.places
    h.sound.unit (h.rows.setHeld v)

/-- The window with its cursor moved within the area. -/
theorem WindowRow.map_cursor {t : Tenant} (h : WindowRow t) (g : Nat → Nat)
    (hle : ∀ w, t.window = some w → g w.cursor ≤ windowArea w) :
    WindowRow { t with window := t.window.map fun w => { w with cursor := g w.cursor } } := by
  refine ⟨h.1, fun w hw => ?_⟩
  obtain ⟨w', hw', rfl⟩ := Option.map_eq_some_iff.1 hw
  obtain ⟨f, hf, h1, h2, h3, h4, _⟩ := h.2 w' hw'
  exact ⟨f, hf, h1, h2, h3, h4, hle w' hw'⟩

theorem windowArea_pos (w : Window) : 0 < windowArea w := by unfold windowArea; positivity

/-- The cursor of the granted record never passes the area. -/
theorem cursorAdvanced_le_area {t : Tenant} {w : Window} (hp : PlanOfTenant t p) (hk : p.kind = .put ∨ p.kind = .get)
    (hw : t.window = some w) (hcs : p.cs ≤ windowArea w) (n : Nat) : cursorAdvanced p n ≤ windowArea w := by
  obtain ⟨q, r, hc, hplan⟩ := hp
  obtain ⟨_, w', hw', harea⟩ := planOf_window hplan hk
  obtain rfl : w = w' := Option.some.inj (hw.symm.trans hw')
  rw [← harea] at hcs ⊢
  exact cursorAdvanced_le (by rw [harea]; exact windowArea_pos w) hcs (PlanOfTenant.policy_ne_none ⟨q, r, hc, hplan⟩ hk) n

/-! ## The end of a hold (R86, R184) -/

theorem issueHeld_ord (e : Elem) : (issueHeld e).ord = e.ord := by unfold issueHeld; split <;> rfl

theorem issueHeld_fill (e : Elem) : (issueHeld e).fill = e.fill := by unfold issueHeld; split <;> rfl

theorem inFlight_issueHeld (e : Elem) : inFlightStage (issueHeld e).stage = true := by
  unfold issueHeld
  split
  · rfl
  · rfl
  · rename_i hs; rw [hs]; rfl
  · rename_i hs; rw [hs]; rfl

/-- An element that still reads does so after its read is issued. -/
theorem issueHeld_reads {e : Elem} (h : e.stage = .readHeld ∨ e.stage = .readIssued) :
    (issueHeld e).stage = .readHeld ∨ (issueHeld e).stage = .readIssued := by
  unfold issueHeld
  rcases h with h | h <;> simp [h]

theorem SoundUnder.releaseHeld (h : SoundUnder s k p) : SoundUnder (releaseHeld k p s) k p := by
  unfold Machine.releaseHeld
  simp only
  generalize hg : (fun e : Elem => if holdEnded (getTenant s k).segment p s.tu e = true then issueHeld e else e) = g
  have hord : ∀ e, (g e).ord = e.ord := by intro e; subst hg; simp only; split <;> simp [issueHeld_ord]
  have hfill : ∀ e, (g e).fill = e.fill := by intro e; subst hg; simp only; split <;> simp [issueHeld_fill]
  have hunit : UnitRows { s.tu with outstanding := s.tu.outstanding.map g } := by
    refine h.sound.unit.mapElems (fun e _ => hord e) (fun e _ => hfill e) fun e _ hin _ => ?_
    subst hg
    simp only
    split
    · exact inFlight_issueHeld e
    · exact hin
  have hrun : RunRows (s.engine ≠ .resetting) (getTenant s k) p { s.tu with outstanding := s.tu.outstanding.map g } := by
    refine h.rows.mapElems (fun e _ => hord e) (fun e _ => hfill e) fun e _ _ hst => ?_
    subst hg
    simp only
    split
    · exact issueHeld_reads hst
    · exact hst
  have hlen : (s.tu.outstanding.map g).length ≤ 8 := by rw [List.length_map]; exact h.sound.places
  split
  · exact h.step ((h.sound.tenants k).tenantOk_setHeld h.runs none) rfl (h.sound.sameGrant rfl rfl rfl rfl) hlen hunit
      (hrun.setHeld none)
  · exact h.step (h.sound.tenants k) rfl (h.sound.sameGrant rfl rfl rfl rfl) hlen hunit hrun

/-! ## Take-up (R86) -/

theorem SoundUnder.placeElem {e : Elem} (h : SoundUnder s k p) (hp : s.tu.phase = .issuing)
    (hlen : s.tu.outstanding.length < Config.places) (hlt : s.tu.nextOrd < takeUps p) (hn : NoFill s.tu)
    (he : e.ord = s.tu.nextOrd) (hf : e.fill = false) : SoundUnder (placeElem s k p e) k p := by
  have hunit := h.sound.unit.place (n := s.tu.sliceCounter + 1) hn hp he hf
  have hrun := h.rows.place (n := s.tu.sliceCounter + 1) hlt he hf
  have hlen' : (s.tu.outstanding ++ [e]).length ≤ 8 := by
    simp only [List.length_append, List.length_singleton]
    exact hlen
  have hstatus := h.sound.grant.2.2.2.1
  have hgo : ∀ (ph : Phase) (n m : Nat), ph ≠ .draining .halt → ph ≠ .draining .abort → ph ≠ .free →
      SoundUnder { s with tu := { s.tu with
        outstanding := s.tu.outstanding ++ [e], nextOrd := s.tu.nextOrd + 1, phase := ph, sliceCounter := n,
        sliceSize := m } } k p := fun ph n m h1 h2 h3 =>
    h.stepUnit ⟨rfl, rfl, fun hx => absurd hx h3, by simp [h2, hp], hstatus⟩ hlen'
      (hunit.with_phase hp h1 h2) (hrun.with_phase hp)
  unfold Machine.placeElem
  simp only
  rcases afterTakeUp_cases s k p { s.tu with
      outstanding := s.tu.outstanding ++ [e], nextOrd := s.tu.nextOrd + 1, sliceCounter := s.tu.sliceCounter + 1 } with
    ⟨_, ha⟩ | ⟨_, _, _, ha⟩ | ⟨_, _, _, ha⟩ | ⟨_, _, ha⟩ <;> rw [ha]
  · exact hgo (.draining .finish) _ _ (by simp) (by simp) (by simp)
  · exact hgo s.tu.phase 0 _ (by simp [hp]) (by simp [hp]) (by simp [hp])
  · exact hgo (.draining .preempt) _ _ (by simp) (by simp) (by simp)
  · exact hgo s.tu.phase _ s.tu.sliceSize (by simp [hp]) (by simp [hp]) (by simp [hp])

/-- What the unit finds when it takes up the next element: it issues, a place is free, an element is left, and no fill
read is outstanding. -/
structure CanTakeUp (s : State) (k : TenantId) (p : Plan) : Prop where
  under : SoundUnder s k p
  issuing : s.tu.phase = .issuing
  room : s.tu.outstanding.length < Config.places
  left : s.tu.nextOrd < takeUps p
  noFill : NoFill s.tu

/-- The first fault of an element at the next ordinal. -/
theorem CanTakeUp.fault {f : Faulting} (h : CanTakeUp s k p) (ho : f.ord = s.tu.nextOrd)
    (hf : isFaultStatus f.status = true) : SoundUnder { s with tu := recordFault s.tu f } k p :=
  h.under.fault (out := s.tu.outstanding) (List.Sublist.refl _)
    (fun e he => by
      have := h.under.sound.unit.ord_lt h.noFill e he
      omega)
    (by rw [ho]; exact h.left) hf

theorem CanTakeUp.takeUpRead (h : CanTakeUp s k p) : SoundUnder (takeUpRead s k p) k p := by
  unfold Machine.takeUpRead
  simp only
  split
  · exact h.fault rfl (isFaultStatus_of_translate ‹_›)
  · exact h.under.placeElem h.issuing h.room h.left h.noFill rfl rfl

theorem CanTakeUp.takeUpWrite (h : CanTakeUp s k p) (v : Word) : SoundUnder (takeUpWrite s k p v) k p := by
  unfold Machine.takeUpWrite
  simp only
  split
  · exact h.fault rfl (isFaultStatus_of_translate ‹_›)
  · exact h.under.placeElem h.issuing h.room h.left h.noFill rfl rfl

theorem CanTakeUp.issueFillRead (h : CanTakeUp s k p) (hk : p.kind = .get) (hp : p.policy = .hold)
    (hin : inWindow p s.tu.nextOrd = false) : SoundUnder (issueFillRead s k p) k p := by
  unfold Machine.issueFillRead
  simp only
  split
  · exact h.fault rfl (isFaultStatus_of_translate ‹_›)
  · refine h.under.stepUnit (h.under.sound.sameGrant rfl rfl rfl rfl) ?_
      (h.under.sound.unit.placeFill h.noFill h.issuing rfl rfl)
      (h.under.rows.placeFill ⟨h.left, hk, hp, hin, ?_⟩)
    · have := h.room
      simp only [List.length_append, List.length_singleton]
      exact this
    · simp only
      split <;> simp

/-- A fill read is outstanding only while a GET under HOLD has reached an overrun element (R55). -/
theorem SoundUnder.noFill (h : SoundUnder s k p)
    (hc : elementReads p s.tu.nextOrd = true ∨ p.policy ≠ .hold ∨ lastReadOutstanding p s.tu.outstanding = false) :
    NoFill s.tu := by
  intro e he
  cases hf : e.fill with
  | false => rfl
  | true =>
    obtain ⟨_, hkind, hpol, hin, hst⟩ := h.rows.fills e he hf
    have hord := (h.sound.unit.elems e he).2.2.2 hf
    rw [hord] at hin
    exfalso
    rcases hc with hc | hc | hc
    · simp [elementReads, hkind, hin] at hc
    · exact hc hpol
    · simp only [lastReadOutstanding, List.any_eq_false] at hc
      have := hc e he
      rcases hst with hst | hst <;> simp [hf, hst] at this

theorem PlanOfTenant.policyFits {t : Tenant} (h : PlanOfTenant t p) : PolicyFits p :=
  let ⟨_, _, _, hp⟩ := h; policyFits_of_planOf hp

theorem SoundParts.execTakeUp (h : SoundParts s) (he : execTakeUp s = .next t) : SoundParts t := by
  obtain rfl := Host.Outcome.next.inj he
  split
  · exact h
  · rename_i k p hrun
    have hu := h.under hrun
    have hfits := hu.rows.plan.policyFits
    split
    · rename_i hc
      obtain ⟨_, hp, hroom, hleft⟩ := hc
      have can : NoFill s.tu → CanTakeUp s k p := fun hn => ⟨hu, hp, hroom, hleft, hn⟩
      split
      · exact (can (hu.noFill (.inl ‹_›))).takeUpRead.sound
      · rename_i hreads
        split
        · rename_i hkind
          refine ((can (hu.noFill (.inr (.inl ?_)))).takeUpWrite _).sound
          simp only [PolicyFits, hkind] at hfits
          simp [hfits]
        · rename_i hpol hnot
          have hget : p.kind = .get := by
            cases hk : p.kind with
            | get => rfl
            | put => simp [elementReads, hk] at hreads
            | copy => simp [elementReads, hk] at hreads
            | fill => exact absurd hk hnot
          unfold Machine.takeUpHold
          split
          · exact h
          · rename_i hlast
            have hcan := can (hu.noFill (.inr (.inr (by simpa using hlast))))
            split
            · exact (hcan.takeUpWrite _).sound
            · exact (hcan.issueFillRead hget hpol (by simpa [elementReads, hget] using hreads)).sound
        · rename_i hpol
          exact ((can (hu.noFill (.inr (.inl hpol)))).takeUpWrite 0).sound
    · exact h

end
end Sys2Proof.Machine
end

section
set_option Elab.async false
/-!
# Answers of elements and the ends of runs keep a sound state (R87 to R97)
-/

namespace Sys2Proof.Machine

section
variable {s t : State} {k : TenantId} {p : Plan}

/-! ## Answers (R87, R88, R91) -/

/-- A reference names one outstanding element. -/
theorem UnitRows.refersTo_ext {u : TransferUnit} (h : UnitRows u) {r : ElemRef} {a b : Elem} (ha : a ∈ u.outstanding)
    (hb : b ∈ u.outstanding) (hra : refersTo r a = true) (hrb : refersTo r b = true) : a = b := by
  refine h.elem_ext ha hb ?_
  cases r with
  | element o =>
    simp only [refersTo, Bool.and_eq_true, beq_iff_eq] at hra hrb
    rw [hra.2, hrb.2]
  | fill => rw [(h.elems a ha).2.2.2 hra, (h.elems b hb).2.2.2 hrb]

/-- Without the element named, no other has its ordinal. -/
theorem ord_ne_of_withoutElem {u : TransferUnit} (h : UnitRows u) {r : ElemRef} {e : Elem} (he : e ∈ u.outstanding)
    (hr : refersTo r e = true) : ∀ a ∈ withoutElem u.outstanding r, a.ord ≠ e.ord := by
  intro a ha ho
  obtain ⟨hmem, hnot⟩ := List.mem_filter.1 ha
  obtain rfl := h.elem_ext hmem he ho
  simp [hr] at hnot

/-- While RESETTING an answer is dropped (R98). -/
theorem SoundUnder.dropElement (h : SoundUnder s k p) (he : s.engine = .resetting) (r : ElemRef) :
    SoundParts (dropElement s r) := by
  have hsub := withoutElem_sublist s.tu.outstanding r
  have hu : SoundUnder { s with tu := { s.tu with outstanding := withoutElem s.tu.outstanding r } } k p :=
    h.stepUnit (h.sound.sameGrant rfl rfl rfl rfl) (hsub.length_le.trans h.sound.places)
      (h.sound.unit.sublist hsub) (h.rows.sublist hsub fun hl => absurd he hl)
  exact hu.sound.endResetIfDrained

/-- The element named leaves: the fill read, or one the unit has stopped issuing for (R87, R92, R97). -/
theorem SoundUnder.elementLeaves {r : ElemRef} {e : Elem} (h : SoundUnder s k p) (he : e ∈ s.tu.outstanding)
    (hr : refersTo r e = true) (hc : e.fill = true ∨ stoppedFor s.tu e.ord = true) :
    SoundUnder { s with tu := { s.tu with outstanding := withoutElem s.tu.outstanding r } } k p := by
  have hsub := withoutElem_sublist s.tu.outstanding r
  refine h.stepUnit (h.sound.sameGrant rfl rfl rfl rfl) (hsub.length_le.trans h.sound.places)
    (h.sound.unit.sublist hsub) (h.rows.sublist hsub fun _ h1 h2 a ha hf => List.mem_filter.2 ⟨ha, ?_⟩)
  have hfill : e.fill = true := by
    refine hc.resolve_right fun hst => ?_
    rcases (stoppedFor_iff h.sound.unit).1 hst with hab | ⟨f, hfs, _⟩
    · exact h2 hab
    · exact h1 (h.sound.unit.halted.2 (by simp [hfs]))
  cases hra : refersTo r a with
  | false => rfl
  | true =>
    have := h.sound.unit.refersTo_ext ha he hra hr
    rw [this, hfill] at hf
    cases hf

/-- The element named goes on to its write (R87). -/
theorem SoundUnder.writeBegins {r : ElemRef} {e e' : Elem} (h : SoundUnder s k p) (he : e ∈ s.tu.outstanding)
    (hr : refersTo r e = true) (hf : e.fill = false) (hs : stoppedFor s.tu e.ord = false) (ho : e'.ord = e.ord)
    (hf' : e'.fill = false) :
    SoundUnder { s with tu := { s.tu with outstanding := replaceElem s.tu.outstanding r e' } } k p := by
  have hone : ∀ a ∈ s.tu.outstanding, refersTo r a = true → a = e := fun a ha hra =>
    h.sound.unit.refersTo_ext ha he hra hr
  have hord : ∀ a ∈ s.tu.outstanding, (if refersTo r a = true then e' else a).ord = a.ord := by
    intro a ha
    split
    · rw [ho, hone a ha ‹_›]
    · rfl
  have hfill : ∀ a ∈ s.tu.outstanding, (if refersTo r a = true then e' else a).fill = a.fill := by
    intro a ha
    split
    · rw [hf', hone a ha ‹_›, hf]
    · rfl
  refine h.stepUnit (h.sound.sameGrant rfl rfl rfl rfl)
    (by simp only [replaceElem, List.length_map]; exact h.sound.places)
    (h.sound.unit.mapElems hord hfill fun a ha hin hst => ?_) (h.rows.mapElems hord hfill fun a ha hfa hst => ?_)
  · split
    · rw [hone a ha ‹_›, hs] at hst
      cases hst
    · exact hin
  · split
    · rw [hone a ha ‹_›, hf] at hfa
      cases hfa
    · exact hst

theorem SoundUnder.writeIssuedEffect (h : SoundUnder s k p) (j : Nat) :
    SoundUnder (setTenant s k (writeIssuedEffect p j (getTenant s k))) k p := by
  unfold Machine.writeIssuedEffect
  split
  · exact h.setHeld none
  · rw [setTenant_getTenant]; exact h

theorem SoundUnder.beginWrite {r : ElemRef} {e : Elem} (h : SoundUnder s k p) (he : e ∈ s.tu.outstanding)
    (hr : refersTo r e = true) (hf : e.fill = false) (hs : stoppedFor s.tu e.ord = false) (v : Word) :
    SoundUnder (beginWrite s k p r e v) k p := by
  unfold Machine.beginWrite
  simp only
  split
  · exact h.fault (withoutElem_sublist _ _) (ord_ne_of_withoutElem h.sound.unit he hr) (h.ord_lt he)
      (isFaultStatus_of_translate ‹_›)
  · split
    · exact h.writeBegins he hr hf hs rfl hf
    · exact (h.writeIssuedEffect e.ord).writeBegins he hr hf hs rfl hf

theorem SoundUnder.readAcknowledged {r : ElemRef} {e : Elem} (h : SoundUnder s k p) (he : e ∈ s.tu.outstanding)
    (hr : refersTo r e = true) (v : Word) : SoundUnder (readAcknowledged s k p r e v) k p := by
  unfold Machine.readAcknowledged
  simp only
  generalize hs' : (if readSetsHeld p e = true then
    setTenant s k (Machine.setHeld (getTenant s k) (some (cutTo p.srcSize v))) else s) = s'
  have hu : SoundUnder s' k p ∧ s'.tu = s.tu := by
    subst hs'
    split
    · exact ⟨h.setHeld _, rfl⟩
    · exact ⟨h, rfl⟩
  obtain ⟨hu, htu⟩ := hu
  rw [← htu] at he
  rw [← htu]
  split
  · rename_i hc
    exact hu.elementLeaves he hr (by simpa using hc)
  · rename_i hc
    simp only [Bool.or_eq_true, not_or, Bool.not_eq_true] at hc
    exact hu.beginWrite he hr hc.1 hc.2 _

theorem SoundParts.execElementReadAck {r : ElemRef} {v : Word} (h : SoundParts s)
    (he : execElementReadAck r v s = .next t) : SoundParts t := by
  obtain rfl := Host.Outcome.next.inj he
  split
  · rename_i k p e hrun hfind
    obtain ⟨hmem, href, _⟩ := findElem_spec hfind
    split
    · exact (h.under hrun).dropElement ‹_› r
    · exact ((h.under hrun).readAcknowledged hmem href v).releaseHeld.sound
  · exact h

/-- The cursor moves within the area at an acknowledged write (R49). -/
theorem SoundUnder.writeAcknowledged {ord : Nat} {e : Elem} (h : SoundUnder s k p) (he : e ∈ s.tu.outstanding)
    (hf : e.fill = false) (ho : e.ord = ord) : SoundUnder (writeAcknowledged s k p ord) k p := by
  have hrun := h.rows.endedUnit h.sound.unit he hf ho
  have hok : TenantOk (advanceCursor p ord (getTenant s k)) := by
    have hcur := hrun.cursor
    have hplan := h.rows.plan
    have hold := h.rows.cursor
    unfold Machine.advanceCursor at hcur ⊢
    split
    · rename_i hc
      refine (h.sound.tenants k).tenantOk_tables (f := (getTenant s k).surfaces) h.runs
        ((h.sound.tenants k).windows.map_cursor _ fun w hw => ?_)
      obtain ⟨w0, hw0, hcs, _⟩ := hold hc.1
      obtain rfl : w = w0 := Option.some.inj (hw.symm.trans hw0)
      rw [if_pos hc] at hcur
      obtain ⟨w', hw', _, hadv⟩ := hcur hc.1
      have hmap : ((getTenant s k).window.map fun w =>
          { w with cursor := cursorStep (p.policy == .wrap) p.area w.cursor }) = some w' := hw'
      rw [hw] at hmap
      obtain rfl := Option.some.inj hmap
      rw [show cursorStep (p.policy == .wrap) p.area w.cursor = _ from hadv]
      exact cursorAdvanced_le_area hplan hc.1 hw hcs _
    · exact h.sound.tenants k
  obtain ⟨n, rest, _, _, _, heq⟩ := h.sound.unit.endedUnit_eq p he ho
  have hsame : SameGrant s.tu (endedUnit p ord s.tu) := by rw [heq]; exact h.sound.sameGrant rfl rfl rfl rfl
  have hlen : (endedUnit p ord s.tu).outstanding.length ≤ 8 := by
    rw [heq]
    exact (withoutElem_sublist s.tu.outstanding _).length_le.trans h.sound.places
  refine h.step hok ?_ hsame hlen (h.sound.unit.endedUnit p he hf ho) hrun
  unfold Machine.advanceCursor
  split <;> rfl

/-- What a write names is an element, not the fill read. -/
theorem SoundUnder.not_fill_of_writes (h : SoundUnder s k p) {e : Elem} (he : e ∈ s.tu.outstanding)
    (hs : e.stage = .writeIssued) : e.fill = false := by
  cases hf : e.fill with
  | false => rfl
  | true => have := (h.rows.fills e he hf).2.2.2.2; simp [hs] at this

theorem SoundParts.execElementWriteAck {ord : Nat} (h : SoundParts s) (he : execElementWriteAck ord s = .next t) :
    SoundParts t := by
  obtain rfl := Host.Outcome.next.inj he
  split
  · rename_i k p e hrun hfind
    obtain ⟨hmem, href, _⟩ := findElem_spec hfind
    simp only [refersTo, Bool.and_eq_true, Bool.not_eq_true', beq_iff_eq] at href
    split
    · exact (h.under hrun).dropElement ‹_› _
    · exact ((h.under hrun).writeAcknowledged hmem href.1 href.2).releaseHeld.sound
  · exact h

theorem errorFault_ord (p : Plan) (e : Elem) : (errorFault p e).ord = e.ord := by unfold errorFault; split <;> rfl

theorem errorFault_status (p : Plan) (e : Elem) : (errorFault p e).status = .busError := by
  unfold errorFault; split <;> rfl

theorem SoundParts.execElementErrorResponse {r : ElemRef} (h : SoundParts s)
    (he : execElementErrorResponse r s = .next t) : SoundParts t := by
  obtain rfl := Host.Outcome.next.inj he
  split
  · rename_i k p e hrun hfind
    obtain ⟨hmem, href, _⟩ := findElem_spec hfind
    have hu := h.under hrun
    split
    · exact hu.dropElement ‹_› r
    · refine (SoundUnder.releaseHeld (hu.fault (withoutElem_sublist _ r) ?_ ?_ ?_)).sound
      · rw [errorFault_ord]; exact ord_ne_of_withoutElem h.unit hmem href
      · rw [errorFault_ord]; exact hu.ord_lt hmem
      · rw [errorFault_status]; rfl
  · exact h

theorem mem_of_mem_holders {seg : Segment} {out : List Elem} {e x : Elem} (h : x ∈ holders seg p out e) : x ∈ out := by
  unfold holders at h
  split at h
  · exact (List.mem_filter.1 h).1
  · exact (List.mem_filter.1 h).1
  · simp at h
  · simp at h

theorem SoundParts.execHeldTransactionIssue {r : ElemRef} (h : SoundParts s)
    (he : execHeldTransactionIssue r s = .next t) : SoundParts t := by
  obtain rfl := Host.Outcome.next.inj he
  split
  · rename_i k p e hrun hfind
    have hu := h.under hrun
    split
    · exact h
    · split
      · exact hu.releaseHeld.sound
      · rename_i x hx
        split
        · rename_i hst
          have hmem : x ∈ s.tu.outstanding := mem_of_mem_holders (e := e) (by rw [hx]; simp)
          exact (hu.writeAcknowledged hmem (hu.not_fill_of_writes hmem hst) rfl).releaseHeld.sound
        · exact h
      · exact h
  · exact h

/-! ## Drains (R89, R93, R95, R97) -/

theorem SoundParts.under_of_drained {c : DrainCause} (h : SoundParts s) (hd : drained s c = some (k, p)) :
    SoundUnder s k p :=
  let ⟨hg, hp, _⟩ := drained_eq_some_iff.1 hd; ⟨h, hg, hp⟩

theorem SoundParts.endFinishDrain (h : SoundParts s) : SoundParts (endFinishDrain s) := by
  unfold Machine.endFinishDrain
  split
  · rename_i k p hd
    obtain ⟨hg, _, _, _, _, hr⟩ := drained_eq_some_iff.1 hd
    refine h.endGrant hg (TenantOk.tenantOk_ackReport ((h.tenants k).tenantOk_endRun hr rfl) (by simp) _) ?_
    simp [Runs]
  · exact h

theorem startCursor_getD {t : Tenant} (h : PlanOfTenant t p) : p.cs = (startCursor p).getD 0 := by
  obtain ⟨q, r, _, hplan⟩ := h
  unfold startCursor
  cases hk : p.kind with
  | put => rfl
  | get => rfl
  | copy => exact planOf_cs_of_rect hplan (.inl hk)
  | fill => exact planOf_cs_of_rect hplan (.inr hk)

/-- At an empty PREEMPT drain every ordinal taken up is in the prefix. -/
theorem SoundUnder.endedOrds_of_preempted (h : SoundUnder s k p) (hs : serving s = true)
    (hp : s.tu.phase = .draining .preempt) (ho : s.tu.outstanding = []) : endedOrds s.tu = List.range s.tu.done := by
  have hcov := h.rows.covered (engine_ne_resetting_of_serving hs) (by simp [hp]) (by simp [hp])
  have hall : ∀ o, s.tu.done ≤ o → o < s.tu.nextOrd → o ∈ s.tu.ended := fun o h1 h2 =>
    (hcov o h1 h2).resolve_right (by simp [ho])
  have hnil : s.tu.ended = [] := by
    refine List.eq_nil_iff_forall_not_mem.2 fun o hmem => ?_
    obtain ⟨h1, h2⟩ := h.sound.unit.ended o hmem
    exact lt_irrefl _ (h.sound.unit.ended s.tu.done (hall s.tu.done le_rfl (by omega))).1
  rw [endedOrds, hnil, List.append_nil]

theorem SoundParts.execDrainPreempt (h : SoundParts s) (he : execDrainPreempt s = .next t) : SoundParts t := by
  obtain rfl := Host.Outcome.next.inj he
  split
  · rename_i k p hd
    obtain ⟨hg, _, hs, hp, ho, hr⟩ := drained_eq_some_iff.1 hd
    have hu := h.under_of_drained hd
    have hplan := hu.rows.plan
    have hdone : s.tu.done ≤ takeUps p := h.unit.done.trans hu.rows.within
    have hcur := hu.rows.cursor
    rw [hu.endedOrds_of_preempted hs hp ho] at hcur
    refine h.freeUnit hg ((h.tenants k).tenantOk_preempt hr fun g hx _ => ?_) (by simp [Runs])
    obtain rfl := Option.some.inj hx
    exact ⟨h.unit.wraps, p, hplan, startCursor_getD hplan, hdone, hcur.of_countP_range hplan hdone⟩
  · exact h

/-- The halt sets the cursor back to the faulting element (R13, R49). -/
theorem SoundUnder.haltCursor (h : SoundUnder s k p) (n : Nat) :
    TenantOk (haltCursor p n (getTenant s k)) ∧ (haltCursor p n (getTenant s k)).state = (getTenant s k).state ∧
    PlanOfTenant (haltCursor p n (getTenant s k)) p ∧ CursorAt (haltCursor p n (getTenant s k)) p n := by
  have hplan := h.rows.plan
  have hold := h.rows.cursor
  have hset : p.kind = .put ∨ p.kind = .get →
      TenantOk (setCursor (getTenant s k) (cursorAdvanced p n)) ∧
      PlanOfTenant (setCursor (getTenant s k) (cursorAdvanced p n)) p ∧
      CursorAt (setCursor (getTenant s k) (cursorAdvanced p n)) p n := by
    intro hk
    obtain ⟨w, hw, hcs, _⟩ := hold hk
    refine ⟨(h.sound.tenants k).tenantOk_tables (f := (getTenant s k).surfaces) h.runs
      ((h.sound.tenants k).windows.map_cursor (fun _ => cursorAdvanced p n) fun v hv =>
        cursorAdvanced_le_area hplan hk hv ?_ n), hplan.map_window fun v => rfl, fun _ => ?_⟩
    · obtain rfl : w = v := Option.some.inj (hw.symm.trans hv)
      exact hcs
    · exact ⟨{ w with cursor := cursorAdvanced p n }, by simp [setCursor, hw], hcs, rfl⟩
  unfold Machine.haltCursor
  cases hk : p.kind with
  | put => obtain ⟨h1, h2, h3⟩ := hset (.inl hk); exact ⟨h1, rfl, h2, h3⟩
  | get => obtain ⟨h1, h2, h3⟩ := hset (.inr hk); exact ⟨h1, rfl, h2, h3⟩
  | copy => exact ⟨h.sound.tenants k, rfl, hplan, fun hx => by simp [hk] at hx⟩
  | fill => exact ⟨h.sound.tenants k, rfl, hplan, fun hx => by simp [hk] at hx⟩

theorem SoundParts.endHaltDrain (h : SoundParts s) : SoundParts (endHaltDrain s) := by
  unfold Machine.endHaltDrain
  split
  · rename_i k p f hd hf
    split
    · rename_i reason hreason
      obtain ⟨hg, _, _, _, _, hr⟩ := drained_eq_some_iff.1 hd
      have hu := h.under_of_drained hd
      obtain ⟨hok, hst, hplan, hcur⟩ := hu.haltCursor f.ord
      have hstatus : isFaultStatus f.status = true := by
        have := h.grant.2.2.2.1
        rwa [hf] at this
      refine h.endGrant hg (TenantOk.tenantOk_ackReport (hok.tenantOk_halt (hst.trans hr) rfl hstatus hreason
        fun g hx _ => ?_) (by simp) _) (by simp [Runs])
      obtain rfl := Option.some.inj hx
      exact ⟨h.unit.wraps, p, hplan, startCursor_getD hplan, (hu.rows.faultWithin f hf).le, hcur⟩
    · exact h
  · exact h

theorem SoundParts.finishAbort (h : SoundParts s) (hk : s.tu.granted = some k) : SoundParts (finishAbort s k) := by
  have hfree := h.freeUnit hk (tenantOk_detachTenant (getTenant s k)) (by simp [Runs])
  unfold Machine.finishAbort
  simp only
  split
  · exact hfree.completeControl (h.engine_ne_off_of_granted hk) _ _
  · exact hfree

theorem SoundParts.execAbortDone (h : SoundParts s) (he : execAbortDone s = .next t) : SoundParts t := by
  obtain rfl := Host.Outcome.next.inj he
  split
  · split
    · exact h.finishAbort ‹_›
    · exact h
  · exact h

theorem SoundParts.execMapPendingApply (h : SoundParts s) (he : execMapPendingApply k s = .next t) :
    SoundParts t := by
  obtain rfl := Host.Outcome.next.inj he
  simp only
  split
  · rename_i hc
    split
    · split
      · split
        · exact h.endFinishDrain
        · exact h.endHaltDrain
        · exact h
      · exact h
    · exact h.endOfRun (engine_ne_off_of_serving hc.1) k
  · exact h

end
end Sys2Proof.Machine
end

section
set_option Elab.async false
/-!
# The control unit keeps a sound state (R105 to R112, R122 to R129, R164 to R176)
-/

namespace Sys2Proof.Machine

section
variable {s t : State} {k : TenantId} {kd : Kind} {c : CtlRecord}

/-- A current control record is served by a part that is not OFF. -/
theorem engine_ne_off_of_currentControl (hc : currentControl s kd = some c) : s.engine ≠ .off :=
  engine_ne_off_of_serving (currentControl_eq_some_iff.1 hc).1

theorem SoundParts.refuseControl (h : SoundParts s) (he : s.engine ≠ .off) (c : CtlRecord) (st : Status) (r : Reason)
    (v : Index) : SoundParts (refuseControl s c st r v) := h.completeControl he _ _

theorem SoundParts.execAttach (h : SoundParts s) (he : execAttach s = .next t) : SoundParts t := by
  obtain rfl := Host.Outcome.next.inj he
  split
  · exact h
  · rename_i c hc
    have he := engine_ne_off_of_currentControl hc
    split
    · exact h.refuseControl he _ _ _ _
    · rename_i k _
      simp only
      split
      · exact h.refuseControl he _ _ _ _
      · rename_i hcheck
        split
        · exact h.refuseControl he _ _ _ _
        · rename_i hd
          exact (h.setTenant ((h.tenants k).quiet_attach (by simpa using hd) hcheck) he).completeControl he _ _

/-- DETACH of a target that holds no run (R168, R170). -/
theorem SoundParts.detachAtOnce (h : SoundParts s) (he : s.engine ≠ .off) (hr : ¬Runs (getTenant s k)) (c : CtlRecord) :
    SoundParts (detachAtOnce s c k) :=
  (h.setTenant ⟨tenantOk_detachTenant _, .of_not_runs hr (by simp [Runs])⟩ he).completeControl he _ _

/-- The state in which the unit drains for an abort (R97, R169). -/
theorem SoundParts.beginAbort {x : Control} (h : SoundParts s) (hr : (getTenant s k).state = .running)
    (hx : serving s = true → x.sqCode ≤ 6 ∧ x.cqCode ≤ 6 ∧ x.sqBase.toNat % 64 = 0 ∧ x.cqBase.toNat % 32 = 0 ∧
      CompletionRingOk x.cu x.cqCode) :
    SoundParts { Machine.setTenant s k (beginDetaching (getTenant s k)) with control := x, tu := Machine.beginAbort s.tu } := by
  have hg := h.granted_of_running hr
  have he := h.engine_ne_off_of_granted hg
  obtain ⟨g1, g2, g3, g4, g5, g6, g7⟩ := h.grant
  have hfree := h.phase_ne_free hg
  generalize ht : ({ Machine.setTenant s k (beginDetaching (getTenant s k)) with
    control := x, tu := Machine.beginAbort s.tu } : State) = t
  have htu : t.tu = Machine.beginAbort s.tu := by rw [← ht]
  have hget : ∀ j, getTenant t j = if j = k then beginDetaching (getTenant s k) else getTenant s j := by
    intro j; rw [← ht]; exact getTenant_setTenant s j k _
  have hother : ∀ j, j ≠ k → ¬Runs (getTenant s j) := fun j hj hrj =>
    hj (Option.some.inj ((h.granted_of_runs hrj).symm.trans hg))
  refine ⟨fun j => ?_, ⟨fun hx => ?_, fun hx => ?_, fun hx => ?_, ?_, fun j hj => ?_, fun j hj => ?_, fun j hj => ?_⟩,
    ?_, ?_, ?_, ?_, ?_⟩
  · rw [hget]
    split
    · exact (h.tenants k).tenantOk_beginDetaching hr
    · exact h.tenants j
  · rw [htu] at hx; cases hx
  · rw [htu] at hx
    have : s.tu.granted = none := hx
    rw [hg] at this
    cases this
  · have : s.grantInProgress ≠ none := by rw [← ht] at hx; exact hx
    exact absurd (g3 this) hfree
  · rw [htu]; rfl
  · rw [hget] at hj
    split at hj
    · simp [beginDetaching] at hj
    · exact absurd (.inl hj) (hother j ‹_›)
  · rw [hget] at hj
    split at hj
    · rename_i hjk; subst hjk; rw [htu]; exact ⟨hg, rfl⟩
    · exact absurd (.inr hj) (hother j ‹_›)
  · rw [htu] at hj
    have hjk : j = k := Option.some.inj ((show s.tu.granted = some j from hj).symm.trans hg)
    rw [hget, if_pos hjk]
    exact .inr rfl
  · rw [← ht]; exact h.off.of_engine_ne rfl he he
  · rw [← ht]; exact ⟨h.control.1, h.control.2.1, h.control.2.2.1, hx⟩
  · rw [htu]; exact (List.length_filter_le _ _).trans h.places
  · rw [htu]; exact h.unit.beginAbort
  · rw [runInv_iff, htu]
    intro j hj
    obtain rfl : j = k := Option.some.inj ((show s.tu.granted = some j from hj).symm.trans hg)
    obtain ⟨h1, h2⟩ := runInv_iff.1 h.run j hg
    refine ⟨fun hn => ?_, fun p hp => ?_⟩
    · obtain ⟨hno, hout⟩ := h1 hn
      exact ⟨hno, by simp [Machine.beginAbort, hout]⟩
    · obtain ⟨⟨q, r, hc, hplan⟩, r2, r3, r4, r5, _⟩ := (h2 p hp).beginAbort
      rw [hget, if_pos rfl]
      exact ⟨⟨q, r, hc, hplan⟩, r2, r3, r4, r5, fun _ _ hab => absurd rfl hab⟩

theorem SoundParts.detachRunning (h : SoundParts s) (hr : (getTenant s k).state = .running) (c : CtlRecord) :
    SoundParts (detachRunning s c k) := by
  have hab := h.beginAbort (x := { (Machine.waitOnTarget s c).control with discardCount := discardCountOf (getTenant s k) }) hr
    h.control.2.2.2
  unfold Machine.detachRunning
  simp only
  split
  · exact hab.finishAbort (h.granted_of_running hr)
  · exact hab

theorem SoundParts.execDetach (h : SoundParts s) (he : execDetach s = .next t) : SoundParts t := by
  obtain rfl := Host.Outcome.next.inj he
  split
  · exact h
  · rename_i c hc
    have he := engine_ne_off_of_currentControl hc
    split
    · exact h.refuseControl he _ _ _ _
    · rename_i k _
      split
      · exact h.completeControl he _ _
      · exact h.detachRunning ‹_› c
      · exact h
      all_goals exact h.detachAtOnce he (not_runs_of_state ‹_›) c

theorem SoundParts.execDrain (h : SoundParts s) (he : execDrain s = .next t) : SoundParts t := by
  obtain rfl := Host.Outcome.next.inj he
  split
  · exact h
  · rename_i c hc
    have he := engine_ne_off_of_currentControl hc
    split
    · exact h.refuseControl he _ _ _ _
    · rename_i k _
      simp only
      split
      · exact h.refuseControl he _ _ _ _
      · have hset := h.setTenant ((h.tenants k).quiet_drain ‹_›) he
        split
        · exact hset.completeControl he _ _
        · exact hset.waitOnTarget he _

theorem SoundParts.execDrainEnd (h : SoundParts s) (he : execDrainEnd s = .next t) : SoundParts t := by
  obtain rfl := Host.Outcome.next.inj he
  split
  · exact h
  · split
    · rename_i hc
      have he := engine_ne_off_of_serving hc.1
      split
      · exact h
      · simp only
        split
        · exact h.completeControl he _ _
        · exact h
    · exact h

theorem SoundParts.carryOutResume (h : SoundParts s) (he : s.engine ≠ .off) (c : CtlRecord) (skip : Bool) :
    SoundParts (carryOutResume s c skip) := by
  unfold Machine.carryOutResume
  split
  · exact h.refuseControl he _ _ _ _
  · rename_i k _
    simp only
    split
    · exact h.refuseControl he _ _ _ _
    · split
      · exact h.refuseControl he _ _ _ _
      · rename_i hres
        exact (h.setTenant ((h.tenants k).quiet_resume (by simpa using hres)) he).completeControl he _ _

theorem SoundParts.execResumeRetry (h : SoundParts s) (he : execResumeRetry s = .next t) : SoundParts t := by
  obtain rfl := Host.Outcome.next.inj he
  split
  · exact h
  · rename_i hc
    split
    · exact h
    · exact h.carryOutResume (engine_ne_off_of_currentControl hc) _ _

theorem SoundParts.execResumeSkip (h : SoundParts s) (he : execResumeSkip s = .next t) : SoundParts t := by
  obtain rfl := Host.Outcome.next.inj he
  split
  · exact h
  · rename_i hc
    split
    · exact h
    · exact h.carryOutResume (engine_ne_off_of_currentControl hc) _ _

theorem SoundParts.execSetService (h : SoundParts s) (he : execSetService s = .next t) : SoundParts t := by
  obtain rfl := Host.Outcome.next.inj he
  split
  · exact h
  · rename_i c hc
    have he := engine_ne_off_of_currentControl hc
    split
    · exact h.refuseControl he _ _ _ _
    · rename_i k _
      simp only
      split
      · exact h.refuseControl he _ _ _ _
      · split
        · exact h.refuseControl he _ _ _ _
        · exact (h.setTenant ((h.tenants k).quiet_service ‹_› _ _ _) he).completeControl he _ _

theorem SoundParts.execQuery (h : SoundParts s) (he : execQuery s = .next t) : SoundParts t := by
  obtain rfl := Host.Outcome.next.inj he
  split
  · exact h
  · rename_i c hc
    have he := engine_ne_off_of_currentControl hc
    simp only
    split
    · exact h.refuseControl he _ _ _ _
    · split
      · exact h.refuseControl he _ _ _ _
      · split
        · exact h.refuseControl he _ _ _ _
        · exact h.with_control he h.control.2.2.2

theorem SoundParts.endQuery (h : SoundParts s) (st : Status) (r : Reason) : SoundParts (endQuery s st r) := by
  unfold Machine.endQuery
  split
  · exact h
  · rename_i q hq
    have he : s.engine ≠ .off := h.engine_ne_off_of_control fun hc => by simp [hc] at hq
    have hset := h.with_control (c := { s.control with query := none }) he h.control.2.2.2
    simp only
    split
    · exact hset.endResetIfDrained
    · split
      · exact hset
      · exact hset.completeControl he _ _

theorem SoundParts.execNote (h : SoundParts s) (he : execNote s = .next t) : SoundParts t := by
  obtain rfl := Host.Outcome.next.inj he
  split
  · exact h
  · rename_i hc
    exact h.completeControl (engine_ne_off_of_currentControl hc) _ _

/-! ## The map unit (R105 to R112) -/

theorem mapOpFits_of_loadOp {r : Record} {op : MapOp} (h : loadOp r = some op) : mapOpFits op := by
  unfold loadOp at h
  simp only at h
  split at h
  · cases h
  · obtain rfl := Option.some.inj h
    simp only [mapOpFits, loadEntries, List.length_map, List.length_range, Config.pages]
    omega

theorem mapOpFits_of_clearOp {r : Record} {op : MapOp} (h : clearOp r = some op) : mapOpFits op := by
  unfold clearOp at h
  simp only at h
  split at h
  · cases h
  · obtain rfl := Option.some.inj h
    simp only [mapOpFits, Config.pages]
    omega

theorem SoundParts.carryOutMap {op : Option MapOp} (h : SoundParts s) (he : s.engine ≠ .off) (c : CtlRecord)
    (ho : ∀ o, op = some o → mapOpFits o) : SoundParts (carryOutMap s c op) := by
  unfold Machine.carryOutMap
  split
  · exact h.completeControl he _ _
  · rename_i k _
    split
    · exact h.completeControl he _ _
    · rename_i o
      split
      · exact h.completeControl he _ _
      · rename_i hd
        unfold Machine.passMapOp
        simp only
        split
        · exact (h.setTenant ((h.tenants k).quiet_pendingMap hd (ho o rfl)) he).waitOnTarget he _
        · exact (h.setTenant ((h.tenants k).quiet_applyMap hd (ho o rfl)) he).completeControl he _ _

theorem SoundParts.execMapLoad (h : SoundParts s) (he : execMapLoad s = .next t) : SoundParts t := by
  obtain rfl := Host.Outcome.next.inj he
  split
  · exact h
  · rename_i hc
    exact h.carryOutMap (engine_ne_off_of_currentControl hc) _ fun _ => mapOpFits_of_loadOp

theorem SoundParts.execMapClear (h : SoundParts s) (he : execMapClear s = .next t) : SoundParts t := by
  obtain rfl := Host.Outcome.next.inj he
  split
  · exact h
  · rename_i hc
    exact h.carryOutMap (engine_ne_off_of_currentControl hc) _ fun _ => mapOpFits_of_clearOp

end
end Sys2Proof.Machine
end

section
set_option Elab.async false
/-!
# Every command keeps a sound state, and with it every invariant
-/

namespace Sys2Proof.Machine

/-- Every command keeps a sound state sound. -/
theorem SoundParts.exec {c : Instr} {s t : State} (h : SoundParts s) (he : exec c s = .next t) : SoundParts t := by
  cases c with
  | producerIndexWrite _ _ => exact h.execProducerIndexWrite he
  | consumerIndexWrite _ _ => exact h.execConsumerIndexWrite he
  | alertWordWrite _ => exact h.execAlertWordWrite he
  | enable _ => exact h.execEnable he
  | softReset _ => exact h.execSoftReset he
  | sizeCodeStore _ => exact h.execSizeCodeStore he
  | controlRingBaseWrite _ _ => exact h.execControlRingBaseWrite he
  | registerWriteOther o w => exact h.execRegisterWriteOther (o := o) (w := w) he
  | tPortBadAccess b _ _ => exact h.execTPortBadAccess (b := b) he
  | rstNAssert => exact SoundParts.execRstNAssert he
  | rstNRelease => exact h.execRstNRelease he
  | softResetEnd => exact h.execSoftResetEnd he
  | syncEdge _ => exact h.execSyncEdge he
  | arrival _ => exact h.execArrival he
  | waitTimeout _ => exact h.execWaitTimeout he
  | holdoffExpiry _ => exact h.execHoldoffExpiry he
  | fetchReadIssue _ => exact h.execFetchReadIssue he
  | controlReadIssue => exact h.execControlReadIssue he
  | fetchReadAck _ _ => exact h.execFetchReadAck he
  | fetchReadError _ => exact h.execFetchReadError he
  | controlFetchAck _ => exact h.execControlFetchAck he
  | controlFetchError => exact h.execControlFetchError he
  | refetchAck _ _ => exact h.execRefetchAck he
  | refetchError _ => exact h.execRefetchError he
  | discardedReadAnswer _ ok => exact h.execDiscardedReadAnswer (ok := ok) he
  | grant => exact h.execGrant he
  | surface => exact h.execSurface he
  | window => exact h.execWindow he
  | put => exact h.execPut he
  | get => exact h.execGet he
  | copy => exact h.execCopy he
  | fill => exact h.execFill he
  | mark => exact h.execMark he
  | probe => exact h.execProbe he
  | wait _ => exact h.execWait he
  | takeUp => exact h.execTakeUp he
  | heldTransactionIssue _ => exact h.execHeldTransactionIssue he
  | elementReadAck _ _ => exact h.execElementReadAck he
  | elementWriteAck _ => exact h.execElementWriteAck he
  | elementErrorResponse _ => exact h.execElementErrorResponse he
  | drainFinish =>
    obtain rfl := Host.Outcome.next.inj he
    exact h.endFinishDrain
  | drainPreempt => exact h.execDrainPreempt he
  | drainHalt =>
    obtain rfl := Host.Outcome.next.inj he
    exact h.endHaltDrain
  | abortDone => exact h.execAbortDone he
  | mapPendingApply _ => exact h.execMapPendingApply he
  | postIssue _ => exact h.execPostIssue he
  | postAck _ => exact h.execPostAck he
  | recoveryAfterPost _ => exact h.execRecoveryAfterPost he
  | postError _ => exact h.execPostError he
  | discardedPostAnswer _ ok => exact h.execDiscardedPostAnswer (ok := ok) he
  | attach => exact h.execAttach he
  | detach => exact h.execDetach he
  | drain => exact h.execDrain he
  | drainEnd => exact h.execDrainEnd he
  | resumeRetry => exact h.execResumeRetry he
  | resumeSkip => exact h.execResumeSkip he
  | mapLoad => exact h.execMapLoad he
  | mapClear => exact h.execMapClear he
  | setService => exact h.execSetService he
  | query => exact h.execQuery he
  | queryReportAck =>
    obtain rfl := Host.Outcome.next.inj he
    exact h.endQuery _ _
  | queryReportError =>
    obtain rfl := Host.Outcome.next.inj he
    exact h.endQuery _ _
  | note => exact h.execNote he
  | timebaseStep => exact h.execTimebaseStep he

/-- Every step keeps a sound state sound. -/
theorem sound_step {s t : State} (h : Sound s) (ht : step s = .next t) : Sound t := by
  have hs := sound_iff.1 h
  unfold step at ht
  split at ht
  · obtain rfl := Host.Outcome.next.inj ht
    exact h
  · exact sound_iff.2 ((hs.with_idle _ s.latches s.draws s.tport).exec ht)

/-- Settles O4: of the invariant `Sound`, which every step keeps. -/
theorem stepKeepsTheGrant : Obligations.StepKeepsTheGrant :=
  fun _ _ h ht => let ⟨hg, _⟩ := sound_step h ht; hg

/-- Settles O5: of the invariant `Sound`, which every step keeps. -/
theorem stepKeepsTheTenantTable : Obligations.StepKeepsTheTenantTable :=
  fun _ _ h ht => let ⟨_, htab, _⟩ := sound_step h ht; htab

/-- Settles O6: of the invariant `Sound`, which every step keeps. -/
theorem stepKeepsOff : Obligations.StepKeepsOff :=
  fun _ _ h ht => let ⟨_, _, hoff, _⟩ := sound_step h ht; hoff

/-- Settles O7: of the invariant `Sound`, which every step keeps. -/
theorem stepKeepsTheRings : Obligations.StepKeepsTheRings :=
  fun _ _ h ht => let ⟨_, _, _, hring, _⟩ := sound_step h ht; hring

/-- Settles O8: of the invariant `Sound`, which every step keeps. -/
theorem stepKeepsTheCapacities : Obligations.StepKeepsTheCapacities :=
  fun _ _ h ht => let ⟨_, _, _, _, hcap, helem, _⟩ := sound_step h ht; ⟨hcap, helem⟩

/-- Settles O9: of the invariant `Sound`, which every step keeps. -/
theorem stepKeepsTheMaps : Obligations.StepKeepsTheMaps :=
  fun _ _ h ht => let ⟨_, _, _, _, _, _, hmap⟩ := sound_step h ht; hmap

/-- Settles O3: the reset values have the parts of `Sound`. -/
theorem resetIsSound : Obligations.ResetIsSound :=
  sound_iff.2 (.of_reset rfl rfl rfl rfl rfl (by decide) (by decide) (by decide))

/-- Settles O1: it is the second branch of `step`. -/
theorem stepRunsTheFrontCommand : Obligations.StepRunsTheFrontCommand := by
  unfold Obligations.StepRunsTheFrontCommand
  intro c rest s h
  unfold step
  rw [h]

end Sys2Proof.Machine
end

section
set_option Elab.async false
/-!
# What no command changes: the queue, and the map of a tenant that holds a run (R107, R109)

`SameMaps` says that a command left the queue and every map; `MapStep` that it left the queue, and that a tenant whose map
it changed holds no run after it. Most operations are `SameMaps`; the end of a run, the map unit, DETACH and the resets are
`MapStep`.
-/

namespace Sys2Proof.Machine

/-! ## One tenant -/

/-- The map as it was. -/
def SameMap (t t' : Tenant) : Prop := t'.mapVersion = t.mapVersion ∧ t'.segment = t.segment

section
variable {k : TenantId} {t : Tenant}

theorem SameMap.refl (t : Tenant) : SameMap t t := ⟨rfl, rfl⟩

theorem SameMap.trans {t' t'' : Tenant} (h : SameMap t t') (h' : SameMap t' t'') : SameMap t t'' :=
  ⟨h'.1.trans h.1, h'.2.trans h.2⟩

theorem sameMap_admitCurrent (k : TenantId) (t : Tenant) : SameMap t (admitCurrent k t) :=
  let ⟨_, hseg, hver, _⟩ := admitCurrent_frame k t; ⟨hver, hseg⟩

theorem sameMap_refuseRecord (k : TenantId) (t : Tenant) (r : Reason) : SameMap t (refuseRecord k t r) :=
  let ⟨_, hseg, hver, _⟩ := refuseRecord_frame k t r; ⟨hver, hseg⟩

theorem sameMap_startWait (k : TenantId) (t : Tenant) (r : Record) : SameMap t (startWait k t r) := by
  rcases startWait_cases k t r with h | ⟨_, _, _, _, h⟩ <;> rw [h]
  · exact sameMap_refuseRecord k t _
  · exact ⟨rfl, rfl⟩

theorem sameMap_takeHead (k : TenantId) (t : Tenant) : SameMap t (takeHead k t) := by
  unfold takeHead
  split
  · exact .refl t
  · rename_i e rest _
    exact sameMap_admitCurrent k { t with current := some e, chan := { t.chan with queue := rest } }

theorem sameMap_recordBoundary (k : TenantId) (t : Tenant) : SameMap t (recordBoundary k t) := by
  unfold recordBoundary
  simp only
  split
  · exact sameMap_takeHead k { t with current := none, ackReport := none, cu := { t.cu with pending := none } }
  · split <;> exact ⟨rfl, rfl⟩

theorem sameMap_issueRefetch (t : Tenant) : SameMap t (issueRefetch t) := by
  unfold issueRefetch; split <;> exact ⟨rfl, rfl⟩

theorem sameMap_endRead (t : Tenant) : SameMap t (endRead t) := by
  unfold endRead
  simp only
  split
  · exact sameMap_issueRefetch { t with chan := { t.chan with inFlight := none } }
  · exact ⟨rfl, rfl⟩

theorem sameMap_clearStop (t : Tenant) : SameMap t (clearStop t) := by unfold clearStop; split <;> exact ⟨rfl, rfl⟩

theorem sameMap_joinQueue (k : TenantId) (t : Tenant) (e : Entry) : SameMap t (joinQueue k t e) := by
  unfold joinQueue
  simp only
  have hend := sameMap_endRead { t with chan := { t.chan with queue := t.chan.queue ++ [e] } }
  split
  · exact hend.trans (sameMap_takeHead k _)
  · exact hend

theorem sameMap_refetched (k : TenantId) (t : Tenant) (q : Index) (d : Record) : SameMap t (refetched k t q d) := by
  unfold refetched
  simp only
  have hstop := sameMap_clearStop { t with chan := { t.chan with inFlight := none } }
  split
  · refine SameMap.trans ?_ (sameMap_admitCurrent k _)
    exact hstop
  · exact hstop

theorem sameMap_refetchFailed (k : TenantId) (t : Tenant) (q : Index) : SameMap t (refetchFailed k t q) := by
  unfold refetchFailed; simp only; split <;> exact ⟨rfl, rfl⟩

theorem sameMap_endDiscardedRead (t : Tenant) : SameMap t (endDiscardedRead t) := by
  unfold endDiscardedRead
  simp only
  split <;> exact sameMap_endRead t

theorem sameMap_tryPostTenant (t : Tenant) : SameMap t (tryPostTenant t) := by
  rcases tryPostTenant_cases t with h | ⟨_, _, _, _, _, _, _, h⟩ <;> rw [h] <;> exact ⟨rfl, rfl⟩

theorem sameMap_beginRefetch (t : Tenant) : SameMap t (beginRefetch t) := by
  unfold beginRefetch
  simp only
  split
  · exact sameMap_issueRefetch { t with recovery := some .refetchOutstanding }
  · exact ⟨rfl, rfl⟩

theorem sameMap_restartWait (k : TenantId) (t : Tenant) : SameMap t (restartWait k t) := by
  unfold restartWait
  simp only
  split
  · exact sameMap_startWait k { t with haltReason := none, state := .waiting } _
  · exact ⟨rfl, rfl⟩

theorem sameMap_retryHalted (k : TenantId) (t : Tenant) : SameMap t (retryHalted k t) := by
  unfold retryHalted
  split
  case h_6 => exact sameMap_beginRefetch t
  case h_7 => exact sameMap_beginRefetch t
  case h_8 => exact sameMap_restartWait k t
  case h_9 =>
    split
    · exact .refl t
    · split <;> exact ⟨rfl, rfl⟩
  all_goals exact ⟨rfl, rfl⟩

theorem sameMap_skipHalted (k : TenantId) (t : Tenant) : SameMap t (skipHalted k t) := by
  unfold skipHalted
  simp only
  split
  · exact SameMap.trans (t' := enterPosting { t with haltReason := none } _) ⟨rfl, rfl⟩ (sameMap_clearStop _)
  · exact ⟨rfl, rfl⟩

theorem sameMap_recoverAfterPost (k : TenantId) (t : Tenant) : SameMap t (recoverAfterPost k t) := by
  unfold recoverAfterPost
  split
  · exact sameMap_retryHalted k { t with recovery := none }
  · exact sameMap_skipHalted k { t with recovery := none }
  · exact .refl t
  · exact .refl t

theorem sameMap_resumeTenant (k : TenantId) (t : Tenant) (skip : Bool) : SameMap t (resumeTenant k t skip) := by
  unfold resumeTenant
  split
  · exact ⟨rfl, rfl⟩
  · split
    · exact ⟨rfl, rfl⟩
    · split
      · exact sameMap_skipHalted k t
      · exact sameMap_retryHalted k t

theorem sameMap_ackTenantPost (k : TenantId) (t : Tenant) (c : Completion) : SameMap t (ackTenantPost k t c) := by
  rw [ackTenantPost_eq]
  refine SameMap.trans (t' := ackedTenant t c) ⟨rfl, rfl⟩ ?_
  unfold postedReport
  split
  · exact sameMap_recordBoundary k _
  · exact sameMap_recoverAfterPost k _
  · exact .refl _

theorem sameMap_failTenantPost (t : Tenant) : SameMap t (failTenantPost t) := by
  unfold failTenantPost; simp only; split <;> exact ⟨rfl, rfl⟩

theorem sameMap_drainTenant (t : Tenant) : SameMap t (drainTenant t) := by
  unfold drainTenant; split <;> exact ⟨rfl, rfl⟩

theorem sameMap_beginWait (k : TenantId) (t : Tenant) : SameMap t (beginWait k t) := by
  unfold beginWait
  split
  · exact sameMap_startWait k t _
  · exact .refl t

theorem sameMap_takeArrivals (latches : Lines) (k : TenantId) (t : Tenant) : SameMap t (takeArrivals latches k t) := by
  unfold takeArrivals
  split
  · exact .refl t
  · rename_i l _ _ _
    split
    · rcases takeArrival_cases l k t with ⟨_, h⟩ | ⟨n, b, _, ⟨_, h⟩ | ⟨_, _, h⟩ | ⟨_, _, h⟩⟩ <;> rw [h] <;>
        exact ⟨rfl, rfl⟩
    · exact .refl t

theorem sameMap_expireWait (k : TenantId) (t : Tenant) : SameMap t (expireWait k t) := by
  unfold expireWait
  split
  · simp only
    split
    · split <;> exact ⟨rfl, rfl⟩
    · exact ⟨rfl, rfl⟩
  · exact .refl t

theorem sameMap_expireHoldoff (t : Tenant) : SameMap t (expireHoldoff t) := by
  unfold expireHoldoff; split <;> exact ⟨rfl, rfl⟩

theorem sameMap_timebaseTenant (latches : Lines) (b : Bool) (k : TenantId) (t : Tenant) :
    SameMap t (timebaseTenant latches b k t) := by
  unfold timebaseTenant
  simp only
  refine SameMap.trans (t' := ticked t) ⟨rfl, rfl⟩ (SameMap.trans ?_ (sameMap_expireHoldoff _))
  split
  · exact (sameMap_expireWait k _).trans (sameMap_takeArrivals latches k _)
  · exact (sameMap_takeArrivals latches k _).trans (sameMap_expireWait k _)

theorem sameMap_advanceCursor (p : Plan) (j : Nat) (t : Tenant) : SameMap t (advanceCursor p j t) := by
  unfold advanceCursor; split <;> exact ⟨rfl, rfl⟩

theorem sameMap_writeIssuedEffect (p : Plan) (j : Nat) (t : Tenant) : SameMap t (writeIssuedEffect p j t) := by
  unfold writeIssuedEffect; split <;> exact ⟨rfl, rfl⟩

theorem sameMap_haltCursor (p : Plan) (n : Nat) (t : Tenant) : SameMap t (haltCursor p n t) := by
  unfold haltCursor; split <;> exact ⟨rfl, rfl⟩

end

/-! ## The part -/

/-- The queue and every map as they were. -/
structure SameMaps (s t : State) : Prop where
  queue : t.pending = s.pending
  maps : ∀ k, SameMap (getTenant s k) (getTenant t k)

/-- The queue as it was, and every tenant's map as it was unless the tenant holds no run. -/
structure MapStep (s t : State) : Prop where
  queue : t.pending = s.pending
  maps : ∀ k, SameMap (getTenant s k) (getTenant t k) ∨ holdsRun (getTenant t k) = false

section
variable {s t u : State} {k : TenantId}

theorem SameMaps.refl (s : State) : SameMaps s s := ⟨rfl, fun _ => .refl _⟩

theorem SameMaps.trans (h : SameMaps s t) (h' : SameMaps t u) : SameMaps s u :=
  ⟨h'.queue.trans h.queue, fun k => (h.maps k).trans (h'.maps k)⟩

/-- The tenants and the queue untouched. -/
theorem SameMaps.of_tenants (ht : t.tenants = s.tenants) (hq : t.pending = s.pending) : SameMaps s t :=
  ⟨hq, fun k => by rw [getTenant_of_tenants_eq ht]; exact .refl _⟩

theorem SameMaps.step (h : SameMaps s t) : MapStep s t := ⟨h.queue, fun k => .inl (h.maps k)⟩

theorem MapStep.refl (s : State) : MapStep s s := (SameMaps.refl s).step

theorem SameMaps.mapStep (h : SameMaps s t) (h' : MapStep t u) : MapStep s u :=
  ⟨h'.queue.trans h.queue, fun k => (h'.maps k).imp_left (h.maps k).trans⟩

/-- What follows touches neither the tenants nor the queue. -/
theorem MapStep.then (h : MapStep s t) (ht : u.tenants = t.tenants) (hq : u.pending = t.pending) : MapStep s u :=
  ⟨hq.trans h.queue, fun k => by rw [getTenant_of_tenants_eq ht]; exact h.maps k⟩

theorem sameMaps_setTenant {x : Tenant} (h : SameMap (getTenant s k) x) : SameMaps s (setTenant s k x) := by
  refine ⟨rfl, fun j => ?_⟩
  rw [getTenant_setTenant]
  split
  · rename_i hj; subst hj; exact h
  · exact .refl _

theorem mapStep_setTenant {x : Tenant} (h : holdsRun x = false) : MapStep s (setTenant s k x) := by
  refine ⟨rfl, fun j => ?_⟩
  rw [getTenant_setTenant]
  split
  · exact .inr h
  · exact .inl (.refl _)

theorem sameMaps_mapTenants {f : TenantId → Tenant → Tenant} (h : ∀ k t, SameMap t (f k t)) :
    SameMaps s (mapTenants s f) := ⟨rfl, fun k => by rw [getTenant_mapTenants]; exact h k _⟩

/-- Fresh tenants hold no run. -/
theorem mapStep_of_reset (ht : t.tenants = {}) (hq : t.pending = s.pending) : MapStep s t := by
  refine ⟨hq, fun k => .inr ?_⟩
  rw [getTenant_of_tenants_eq (t := State.reset) ht]
  fin_cases k <;> rfl

theorem mapStep_resetBlocks (s : State) : MapStep s (resetBlocks s) := mapStep_of_reset rfl rfl

theorem mapStep_endResetIfDrained (s : State) : MapStep s (endResetIfDrained s) := by
  rcases endResetIfDrained_cases s with h | ⟨_, _, h⟩ <;> rw [h]
  · exact .refl s
  · exact mapStep_resetBlocks s

/-- Registers: what the T-port does for a word whose rule leaves the maps. -/
theorem mapStep_tportWrite {act : State → State} (h : ∀ s, MapStep s (act s)) (s : State) :
    MapStep s (tportWrite s act) := by
  have hok : ∀ a, SameMaps s { s with tport := a } := fun a => .of_tenants rfl rfl
  rcases tportWrite_cases s act with ⟨_, he⟩ | ⟨_, _, he⟩ | ⟨_, _, he⟩ <;> rw [he]
  · exact (hok _).step
  · exact (hok _).step
  · exact (hok _).mapStep (h _)

/-- The end of a run, with the operation that pended for it applied (R110). -/
theorem mapStep_endOfRun (h : holdsRun (getTenant s k) = false) : MapStep s (endOfRun s k) := by
  rcases endOfRun_cases s k with ⟨_, he⟩ | ⟨op, _, ht, _, _, hp, _⟩
  · rw [he]; exact .refl s
  · exact MapStep.then (mapStep_setTenant (s := s) (k := k) (x := applyMap op (getTenant s k)) h) ht hp

theorem mapStep_endGrant {x : Tenant} (hm : SameMap (getTenant s k) x) (hx : holdsRun x = false) :
    MapStep s (endGrant s k x) := by
  have hset : SameMaps s { setTenant s k x with tu := {} } :=
    (sameMaps_setTenant hm).trans (.of_tenants rfl rfl)
  refine hset.mapStep (mapStep_endOfRun ?_)
  rw [getTenant_with_tu, getTenant_setTenant_self]
  exact hx

theorem holdsRun_of_not_runs {t : Tenant} {st : TState} (h : t.state = st) (h1 : st ≠ .running := by decide)
    (h2 : st ≠ .detaching := by decide) (h3 : st ≠ .ready := by decide) : holdsRun t = false := by
  unfold holdsRun
  split <;> simp_all

theorem holdsRun_refuseRecord (k : TenantId) (t : Tenant) (r : Reason) : holdsRun (refuseRecord k t r) = false := by
  rcases refuseRecord_cases k t r with ⟨_, h⟩ | ⟨_, h⟩ <;> rw [h] <;> rfl

end
end Sys2Proof.Machine
end

section
set_option Elab.async false
/-!
# Every command keeps the queue, and changes no map under a run
-/

namespace Sys2Proof.Machine

section
variable {s : State} {k : TenantId}

theorem sameMaps_takeControl (s : State) : SameMaps s (takeControl s) :=
  let ⟨ht, _, _, hp, _⟩ := takeControl_frame s; .of_tenants ht hp

theorem sameMaps_tryControlRead (s : State) : SameMaps s (tryControlRead s) := by
  rcases tryControlRead_cases s with h | ⟨_, _, _, _, h⟩ <;> rw [h] <;> exact .of_tenants (by rfl) (by rfl)

theorem sameMaps_completeControl (s : State) (c : CtlRecord) (d : Completion) : SameMaps s (completeControl s c d) :=
  .of_tenants (by rfl) (by rfl)

theorem sameMaps_waitOnTarget (s : State) (c : CtlRecord) : SameMaps s (waitOnTarget s c) := .of_tenants (by rfl) (by rfl)

/-! ## The T-port -/

theorem sameMaps_indexAlertTenant (s : State) (k : TenantId) : SameMaps s (indexAlertTenant s k) :=
  sameMaps_setTenant (by exact ⟨rfl, rfl⟩)

theorem sameMaps_producerWriteTenant (s : State) (k : TenantId) (v : Index) :
    SameMaps s (producerWriteTenant s k v) := by
  unfold producerWriteTenant
  simp only
  split
  · exact sameMaps_setTenant (by exact ⟨rfl, rfl⟩)
  · exact sameMaps_indexAlertTenant s k

theorem sameMaps_producerWriteControl (s : State) (v : Index) : SameMaps s (producerWriteControl s v) := by
  unfold producerWriteControl
  split
  · split <;> exact .of_tenants (by rfl) (by rfl)
  · exact .refl s

theorem sameMaps_consumerWriteTenant (s : State) (k : TenantId) (v : Index) :
    SameMaps s (consumerWriteTenant s k v) := by
  unfold consumerWriteTenant
  simp only
  split
  · split
    · exact .refl s
    · refine sameMaps_setTenant ?_
      generalize ht : (if (getTenant s k).cu.writeIndex = v then
        { getTenant s k with cu := consume (getTenant s k).cu v, holdoffTimer := none, holdoffExpired := false }
        else { getTenant s k with cu := consume (getTenant s k).cu v }) = t'
      have hsame : SameMap (getTenant s k) t' := by subst ht; split <;> exact ⟨rfl, rfl⟩
      split
      · exact hsame.trans (sameMap_tryPostTenant t')
      · exact hsame
  · exact sameMaps_indexAlertTenant s k

theorem sameMaps_consumerWriteControl (s : State) (v : Index) : SameMaps s (consumerWriteControl s v) := by
  unfold consumerWriteControl
  split
  · split
    · split <;> exact .of_tenants (by rfl) (by rfl)
    · exact .of_tenants (by rfl) (by rfl)
  · exact .refl s

theorem sameMaps_with_control (s : State) (c : Control) : SameMaps s { s with control := c } := .of_tenants (by rfl) (by rfl)

theorem sameMaps_enableFromStopped (s : State) : SameMaps s (enableFromStopped s) := by
  unfold enableFromStopped
  simp only
  refine SameMaps.trans ?_ (sameMaps_tryControlRead _)
  refine SameMaps.trans (t := { s with engine := .on, control := { s.control with postStop := false } })
    (.of_tenants (by rfl) (by rfl)) ((sameMaps_takeControl _).trans (sameMaps_with_control _ _))

theorem sameMaps_beginSoftReset (s : State) : SameMaps s (beginSoftReset s) :=
  SameMaps.trans (.of_tenants (by rfl) (by rfl)) (sameMaps_mapTenants fun _ _ => by exact ⟨rfl, rfl⟩)

/-! ## Transactions dropped and answered -/

theorem mapStep_dropTenantRead (s : State) (k : TenantId) : MapStep s (dropTenantRead s k) :=
  SameMaps.mapStep (sameMaps_setTenant (by exact ⟨rfl, rfl⟩)) (mapStep_endResetIfDrained _)

theorem mapStep_dropTenantPost (s : State) (k : TenantId) : MapStep s (dropTenantPost s k) :=
  SameMaps.mapStep (sameMaps_setTenant (by exact ⟨rfl, rfl⟩)) (mapStep_endResetIfDrained _)

/-- While RESETTING the control context drops a transaction. -/
theorem mapStep_dropControl (s : State) (c : Control) : MapStep s (endResetIfDrained { s with control := c }) :=
  SameMaps.mapStep (.of_tenants (by rfl) (by rfl)) (mapStep_endResetIfDrained _)

/-- The answer to a tenant's read. -/
theorem mapStep_readAnswered {kd : ReadKind} {d : Bool} {f : FetchRead → Tenant}
    (hf : ∀ r, SameMap (getTenant s k) (f r)) :
    MapStep s (match readInFlight (getTenant s k) kd d with
      | none => s
      | some r => if s.engine = .resetting then dropTenantRead s k else setTenant s k (f r)) := by
  split
  · exact .refl s
  · split
    · exact mapStep_dropTenantRead s k
    · exact (sameMaps_setTenant (hf _)).step

theorem mapStep_tenantPostAcked (s : State) (k : TenantId) : MapStep s (tenantPostAcked s k) := by
  unfold tenantPostAcked
  split
  · exact .refl s
  · split
    · exact mapStep_dropTenantPost s k
    · exact (sameMaps_setTenant (sameMap_ackTenantPost k _ _)).step

theorem sameMaps_timebaseStep (s : State) (f : TenantId → Bool) : SameMaps s (timebaseStep s f) :=
  ⟨rfl, fun k => by rw [getTenant_timebaseStep]; exact sameMap_timebaseTenant _ _ k _⟩

/-! ## Grants and the element pipeline -/

theorem sameMaps_takeGrant (s : State) (k : TenantId) : SameMaps s (takeGrant s k) :=
  SameMaps.trans (t := setTenant s k (grantedTenant (getTenant s k))) (sameMaps_setTenant (by exact ⟨rfl, rfl⟩))
    (.of_tenants (by rfl) (by rfl))

theorem mapStep_refuseGrant (s : State) (k : TenantId) (r : Reason) : MapStep s (refuseGrant s k r) :=
  mapStep_endGrant (sameMap_refuseRecord k _ r) (holdsRun_refuseRecord k _ r)

theorem mapStep_enterPosting {x : Tenant} (hx : SameMap (getTenant s k) x) (c : Completion) :
    MapStep s (endGrant s k (enterPosting x c)) := mapStep_endGrant hx rfl

theorem sameMaps_startData (s : State) (p : Plan) : SameMaps s (startData s p) := .of_tenants (by rfl) (by rfl)

theorem sameMaps_with_tu (s : State) (u : TransferUnit) : SameMaps s { s with tu := u } := .of_tenants (by rfl) (by rfl)

theorem sameMaps_takeUpRead (s : State) (k : TenantId) (p : Plan) : SameMaps s (takeUpRead s k p) := by
  unfold takeUpRead; simp only; split <;> exact sameMaps_with_tu s _

theorem sameMaps_takeUpWrite (s : State) (k : TenantId) (p : Plan) (v : Word) : SameMaps s (takeUpWrite s k p v) := by
  unfold takeUpWrite; simp only; split <;> exact sameMaps_with_tu s _

theorem sameMaps_takeUpHold (s : State) (k : TenantId) (p : Plan) : SameMaps s (takeUpHold s k p) := by
  unfold takeUpHold
  split
  · exact .refl s
  · split
    · exact sameMaps_takeUpWrite s k p _
    · unfold issueFillRead
      simp only
      split <;> exact sameMaps_with_tu s _

theorem mapStep_dropElement (s : State) (r : ElemRef) : MapStep s (dropElement s r) :=
  (sameMaps_with_tu s _).mapStep (mapStep_endResetIfDrained _)

theorem sameMaps_releaseHeld (k : TenantId) (p : Plan) (s : State) : SameMaps s (releaseHeld k p s) := by
  unfold releaseHeld
  simp only
  refine SameMaps.trans (sameMaps_setTenant ?_) (sameMaps_with_tu _ _)
  split <;> exact ⟨rfl, rfl⟩

theorem sameMaps_beginWrite (s : State) (k : TenantId) (p : Plan) (r : ElemRef) (e : Elem) (v : Word) :
    SameMaps s (beginWrite s k p r e v) := by
  unfold beginWrite
  simp only
  split
  · exact sameMaps_with_tu s _
  · split
    · exact sameMaps_with_tu s _
    · exact (sameMaps_setTenant (sameMap_writeIssuedEffect p _ _)).trans (sameMaps_with_tu _ _)

theorem sameMaps_readAcknowledged (s : State) (k : TenantId) (p : Plan) (r : ElemRef) (e : Elem) (v : Word) :
    SameMaps s (readAcknowledged s k p r e v) := by
  unfold readAcknowledged
  simp only
  generalize hs' : (if readSetsHeld p e = true then
    setTenant s k (setHeld (getTenant s k) (some (cutTo p.srcSize v))) else s) = s'
  have hsame : SameMaps s s' := by
    subst hs'
    split
    · exact sameMaps_setTenant (by exact ⟨rfl, rfl⟩)
    · exact .refl s
  split
  · exact hsame.trans (sameMaps_with_tu s' _)
  · exact hsame.trans (sameMaps_beginWrite s' k p r e _)

theorem sameMaps_writeAcknowledged (s : State) (k : TenantId) (p : Plan) (o : Nat) :
    SameMaps s (writeAcknowledged s k p o) :=
  (sameMaps_setTenant (sameMap_advanceCursor p o _)).trans (sameMaps_with_tu _ _)

theorem mapStep_endFinishDrain (s : State) : MapStep s (endFinishDrain s) := by
  unfold endFinishDrain
  split
  · exact mapStep_endGrant ⟨rfl, rfl⟩ rfl
  · exact .refl s

theorem mapStep_endHaltDrain (s : State) : MapStep s (endHaltDrain s) := by
  unfold endHaltDrain
  split
  · split
    · rename_i k p f _ _ _ _ _
      have hc := sameMap_haltCursor p f.ord (getTenant s k)
      exact mapStep_endGrant hc rfl
    · exact .refl s
  · exact .refl s

theorem mapStep_finishAbort (s : State) (k : TenantId) : MapStep s (finishAbort s k) := by
  have hset : MapStep s { setTenant s k (detachTenant (getTenant s k)) with tu := {} } :=
    (mapStep_setTenant (holdsRun_of_not_runs (st := .detached) rfl)).then rfl rfl
  unfold finishAbort
  simp only
  split
  · exact hset.then rfl rfl
  · exact hset

/-! ## The control unit and the map unit -/

theorem mapStep_detachRunning (s : State) (c : CtlRecord) (k : TenantId) : MapStep s (detachRunning s c k) := by
  have hset : SameMaps s (setTenant s k (beginDetaching (getTenant s k))) := sameMaps_setTenant (by exact ⟨rfl, rfl⟩)
  unfold detachRunning
  simp only
  split
  · refine SameMaps.mapStep ?_ (mapStep_finishAbort _ k)
    exact hset.trans (.of_tenants (by rfl) (by rfl))
  · exact (hset.trans (.of_tenants (by rfl) (by rfl))).step

theorem mapStep_detachAtOnce (s : State) (c : CtlRecord) (k : TenantId) : MapStep s (detachAtOnce s c k) :=
  (mapStep_setTenant (holdsRun_of_not_runs (st := .detached) rfl)).then rfl rfl

theorem sameMaps_carryOutResume (s : State) (c : CtlRecord) (skip : Bool) : SameMaps s (carryOutResume s c skip) := by
  unfold carryOutResume
  split
  · exact sameMaps_completeControl _ _ _
  · simp only
    split
    · exact sameMaps_completeControl _ _ _
    · split
      · exact sameMaps_completeControl _ _ _
      · exact (sameMaps_setTenant (sameMap_resumeTenant _ _ skip)).trans (sameMaps_completeControl _ _ _)

theorem mapStep_carryOutMap (s : State) (c : CtlRecord) (op : Option MapOp) : MapStep s (carryOutMap s c op) := by
  unfold carryOutMap
  split
  · exact (sameMaps_completeControl _ _ _).step
  · rename_i k _
    split
    · exact (sameMaps_completeControl _ _ _).step
    · rename_i o
      split
      · exact (sameMaps_completeControl _ _ _).step
      · unfold passMapOp
        simp only
        split
        · exact SameMaps.step ((sameMaps_setTenant (by exact ⟨rfl, rfl⟩)).trans (sameMaps_waitOnTarget _ _))
        · rename_i hrun
          have happ : holdsRun (applyMap o (getTenant s k)) = false := Bool.eq_false_iff.2 hrun
          exact (mapStep_setTenant happ).then rfl rfl

theorem mapStep_endQuery (s : State) (st : Status) (r : Reason) : MapStep s (endQuery s st r) := by
  unfold endQuery
  split
  · exact .refl s
  · simp only
    split
    · exact mapStep_dropControl s _
    · split <;> exact (SameMaps.of_tenants (by rfl) (by rfl)).step

end

/-! ## Every command -/

section
variable {s : State} {k : TenantId}

/-- A command is completed with this step. -/
def Completes (o : Host.Outcome State Fault Refusal) (s : State) : Prop := ∃ t, o = .next t ∧ MapStep s t

theorem MapStep.completes {t : State} (h : MapStep s t) : Completes (.next t) s := ⟨t, rfl, h⟩

theorem completes_execGrant (s : State) : Completes (execGrant s) s := by
  obtain ⟨t, ht⟩ : ∃ t, execGrant s = .next t := ⟨_, rfl⟩
  refine ⟨t, ht, ?_⟩
  rcases execGrant_cases ht with rfl | ⟨_, _, ⟨k, _, _, rfl⟩ | ⟨_, rfl⟩ | ⟨k, _, rfl | rfl⟩⟩
  · exact .refl t
  · exact (sameMaps_takeGrant s k).step
  · exact (SameMaps.of_tenants (by rfl) (by rfl)).step
  · exact (SameMaps.of_tenants (by rfl) (by rfl)).step
  · exact ((SameMaps.of_tenants (by rfl) (by rfl)).trans (sameMaps_takeGrant _ k)).step

/-- A zero-element record that ends with these tables, or is refused. -/
theorem mapStep_finishZeroElement {x : Tenant} (hx : SameMap (getTenant s k) x) (aux : Word) :
    MapStep s (finishZeroElement s k x aux) := mapStep_enterPosting hx _

theorem completes_execSurface (s : State) : Completes (execSurface s) s := by
  refine MapStep.completes ?_
  split
  · exact .refl s
  · split
    · exact mapStep_refuseGrant s _ _
    · split
      · exact mapStep_refuseGrant s _ _
      · exact mapStep_finishZeroElement (by exact ⟨rfl, rfl⟩) 0

theorem completes_execWindow (s : State) : Completes (execWindow s) s := by
  refine MapStep.completes ?_
  split
  · exact .refl s
  · split
    · exact mapStep_refuseGrant s _ _
    · split
      · exact mapStep_refuseGrant s _ _
      · split
        · exact mapStep_refuseGrant s _ _
        · exact mapStep_finishZeroElement (by exact ⟨rfl, rfl⟩) 0

theorem completes_execPut (s : State) : Completes (execPut s) s := by
  refine MapStep.completes ?_
  split
  · exact .refl s
  · simp only
    split
    · exact mapStep_refuseGrant s _ _
    · exact mapStep_refuseGrant s _ _
    · split
      · exact mapStep_enterPosting (.refl _) _
      · exact (sameMaps_startData s _).step

theorem completes_execGet (s : State) : Completes (execGet s) s := by
  refine MapStep.completes ?_
  split
  · exact .refl s
  · simp only
    split
    · exact mapStep_refuseGrant s _ _
    · exact mapStep_refuseGrant s _ _
    · exact (sameMaps_startData s _).step

theorem completes_execCopy (s : State) : Completes (execCopy s) s := by
  refine MapStep.completes ?_
  split
  · exact .refl s
  · simp only
    split
    · split
      · exact mapStep_refuseGrant s _ _
      · split
        · split
          · exact mapStep_refuseGrant s _ _
          · split
            · exact mapStep_refuseGrant s _ _
            · exact (sameMaps_startData s _).step
        · exact mapStep_refuseGrant s _ _
    · exact mapStep_refuseGrant s _ _

theorem completes_execFill (s : State) : Completes (execFill s) s := by
  refine MapStep.completes ?_
  split
  · exact .refl s
  · simp only
    split
    · exact mapStep_refuseGrant s _ _
    · split
      · exact mapStep_refuseGrant s _ _
      · split
        · exact mapStep_refuseGrant s _ _
        · split
          · exact mapStep_refuseGrant s _ _
          · exact (sameMaps_startData s _).step

theorem completes_execMark (s : State) : Completes (execMark s) s := by
  refine MapStep.completes ?_
  split
  · exact .refl s
  · exact mapStep_finishZeroElement (.refl _) 0

theorem completes_execProbe (s : State) : Completes (execProbe s) s := by
  refine MapStep.completes ?_
  split
  · exact .refl s
  · simp only
    split
    · exact mapStep_refuseGrant s _ _
    · exact mapStep_finishZeroElement (.refl _) _

theorem completes_execTakeUp (s : State) : Completes (execTakeUp s) s := by
  refine MapStep.completes (SameMaps.step ?_)
  split
  · exact .refl s
  · split
    · split
      · exact sameMaps_takeUpRead s _ _
      · split
        · exact sameMaps_takeUpWrite s _ _ _
        · exact sameMaps_takeUpHold s _ _
        · exact sameMaps_takeUpWrite s _ _ _
    · exact .refl s

theorem completes_execHeldTransactionIssue (r : ElemRef) (s : State) : Completes (execHeldTransactionIssue r s) s := by
  refine MapStep.completes (SameMaps.step ?_)
  split
  · split
    · exact .refl s
    · split
      · exact sameMaps_releaseHeld _ _ s
      · split
        · exact (sameMaps_writeAcknowledged s _ _ _).trans (sameMaps_releaseHeld _ _ _)
        · exact .refl s
      · exact .refl s
  · exact .refl s

theorem completes_execElementReadAck (r : ElemRef) (v : Word) (s : State) : Completes (execElementReadAck r v s) s := by
  refine MapStep.completes ?_
  split
  · split
    · exact mapStep_dropElement s r
    · exact ((sameMaps_readAcknowledged s _ _ _ _ _).trans (sameMaps_releaseHeld _ _ _)).step
  · exact .refl s

theorem completes_execElementWriteAck (o : Nat) (s : State) : Completes (execElementWriteAck o s) s := by
  refine MapStep.completes ?_
  split
  · split
    · exact mapStep_dropElement s _
    · exact ((sameMaps_writeAcknowledged s _ _ _).trans (sameMaps_releaseHeld _ _ _)).step
  · exact .refl s

theorem completes_execElementErrorResponse (r : ElemRef) (s : State) :
    Completes (execElementErrorResponse r s) s := by
  refine MapStep.completes ?_
  split
  · split
    · exact mapStep_dropElement s r
    · exact ((sameMaps_with_tu s _).trans (sameMaps_releaseHeld _ _ _)).step
  · exact .refl s

theorem completes_execDrainPreempt (s : State) : Completes (execDrainPreempt s) s := by
  refine MapStep.completes (SameMaps.step ?_)
  split
  · exact (sameMaps_setTenant (by exact ⟨rfl, rfl⟩)).trans (sameMaps_with_tu _ _)
  · exact .refl s

theorem completes_execAbortDone (s : State) : Completes (execAbortDone s) s := by
  refine MapStep.completes ?_
  split
  · split
    · exact mapStep_finishAbort s _
    · exact .refl s
  · exact .refl s

theorem completes_execMapPendingApply (k : TenantId) (s : State) : Completes (execMapPendingApply k s) s := by
  refine MapStep.completes ?_
  simp only
  split
  · split
    · split
      · split
        · exact mapStep_endFinishDrain s
        · exact mapStep_endHaltDrain s
        · exact .refl s
      · exact .refl s
    · exact mapStep_endOfRun (Bool.eq_false_iff.2 ‹_›)
  · exact .refl s

theorem completes_execPostIssue (c : Ctx) (s : State) : Completes (execPostIssue c s) s := by
  refine MapStep.completes (SameMaps.step ?_)
  split
  · cases c with
    | control => exact .of_tenants (by rfl) (by rfl)
    | tenant k => exact sameMaps_setTenant (sameMap_tryPostTenant _)
  · exact .refl s

theorem completes_execPostAck (c : Ctx) (s : State) : Completes (execPostAck c s) s := by
  refine MapStep.completes ?_
  cases c with
  | tenant k => exact mapStep_tenantPostAcked s k
  | control =>
    simp only
    split
    · exact .refl s
    · split
      · exact mapStep_dropControl s _
      · exact (SameMaps.trans (.of_tenants (by rfl) (by rfl)) (sameMaps_takeControl _)).step

theorem completes_execPostError (c : Ctx) (s : State) : Completes (execPostError c s) s := by
  refine MapStep.completes ?_
  cases c with
  | tenant k =>
    simp only
    split
    · exact .refl s
    · split
      · exact mapStep_dropTenantPost s k
      · exact (sameMaps_setTenant (sameMap_failTenantPost _)).step
  | control =>
    simp only
    split
    · exact .refl s
    · split
      · exact mapStep_dropControl s _
      · exact (SameMaps.of_tenants (by rfl) (by rfl)).step

theorem completes_execAttach (s : State) : Completes (execAttach s) s := by
  refine MapStep.completes (SameMaps.step ?_)
  split
  · exact .refl s
  · split
    · exact sameMaps_completeControl _ _ _
    · simp only
      split
      · exact sameMaps_completeControl _ _ _
      · split
        · exact sameMaps_completeControl _ _ _
        · exact (sameMaps_setTenant (by exact ⟨rfl, rfl⟩)).trans (sameMaps_completeControl _ _ _)

theorem completes_execDetach (s : State) : Completes (execDetach s) s := by
  refine MapStep.completes ?_
  split
  · exact .refl s
  · split
    · exact (sameMaps_completeControl _ _ _).step
    · split
      case h_1 => exact (sameMaps_completeControl _ _ _).step
      case h_2 => exact mapStep_detachRunning s _ _
      case h_3 => exact .refl s
      all_goals exact mapStep_detachAtOnce s _ _

theorem completes_execDrain (s : State) : Completes (execDrain s) s := by
  refine MapStep.completes (SameMaps.step ?_)
  split
  · exact .refl s
  · split
    · exact sameMaps_completeControl _ _ _
    · rename_i k _
      simp only
      split
      · exact sameMaps_completeControl _ _ _
      · refine SameMaps.trans (sameMaps_setTenant (k := k) (sameMap_drainTenant _)) ?_
        split
        · exact sameMaps_completeControl _ _ _
        · exact sameMaps_waitOnTarget _ _

theorem completes_execDrainEnd (s : State) : Completes (execDrainEnd s) s := by
  refine MapStep.completes (SameMaps.step ?_)
  split
  · exact .refl s
  · split
    · split
      · exact .refl s
      · simp only
        split
        · exact sameMaps_completeControl _ _ _
        · exact .refl s
    · exact .refl s

theorem completes_execSetService (s : State) : Completes (execSetService s) s := by
  refine MapStep.completes (SameMaps.step ?_)
  split
  · exact .refl s
  · split
    · exact sameMaps_completeControl _ _ _
    · simp only
      split
      · exact sameMaps_completeControl _ _ _
      · split
        · exact sameMaps_completeControl _ _ _
        · exact (sameMaps_setTenant (by exact ⟨rfl, rfl⟩)).trans (sameMaps_completeControl _ _ _)

theorem completes_execQuery (s : State) : Completes (execQuery s) s := by
  refine MapStep.completes (SameMaps.step ?_)
  split
  · exact .refl s
  · simp only
    split
    · exact sameMaps_completeControl _ _ _
    · split
      · exact sameMaps_completeControl _ _ _
      · split
        · exact sameMaps_completeControl _ _ _
        · exact .of_tenants (by rfl) (by rfl)

/-- A command that does nothing with no current control record of its kind. -/
theorem completes_of_control {kd : Kind} {f : CtlRecord → State} (h : ∀ c, MapStep s (f c)) :
    MapStep s (match currentControl s kd with | none => s | some c => f c) := by
  split
  · exact .refl s
  · exact h _

/-- A step of the timebase under a condition. -/
theorem completes_of_timebase {b : Prop} [Decidable b] (f : TenantId → Bool) :
    Completes (.next (if b then timebaseStep s f else s)) s := by
  refine MapStep.completes (SameMaps.step ?_)
  split
  · exact sameMaps_timebaseStep s f
  · exact .refl s

theorem completes_execDiscardedReadAnswer (k : TenantId) (ok : Bool) (s : State) :
    Completes (execDiscardedReadAnswer k ok s) s := by
  refine MapStep.completes ?_
  split
  · exact .refl s
  · split
    · split
      · exact mapStep_dropTenantRead s k
      · exact (sameMaps_setTenant (sameMap_endDiscardedRead _)).step
    · exact .refl s

theorem completes_execControlFetchAck (d : Record) (s : State) : Completes (execControlFetchAck d s) s := by
  refine MapStep.completes ?_
  split
  · exact .refl s
  · split
    · exact mapStep_dropControl s _
    · exact (SameMaps.trans (.of_tenants (by rfl) (by rfl)) (sameMaps_takeControl _)).step

theorem completes_execControlFetchError (s : State) : Completes (execControlFetchError s) s := by
  refine MapStep.completes ?_
  split
  · exact .refl s
  · split
    · exact mapStep_dropControl s _
    · exact (SameMaps.of_tenants (by rfl) (by rfl)).step

theorem completes_execDiscardedPostAnswer (k : TenantId) (ok : Bool) (s : State) :
    Completes (execDiscardedPostAnswer k ok s) s := by
  refine MapStep.completes ?_
  split
  · exact .refl s
  · split
    · exact mapStep_dropTenantPost s k
    · exact .refl s

theorem completes_execTimebaseStep (s : State) : Completes (execTimebaseStep s) s := by
  refine MapStep.completes (SameMaps.step ?_)
  split
  · exact sameMaps_timebaseStep s _
  · split <;> exact .of_tenants (by rfl) (by rfl)

theorem completes_execWait (k : TenantId) (s : State) : Completes (execWait k s) s := by
  refine MapStep.completes ?_
  simp only
  split
  · split
    · exact mapStep_tenantPostAcked s k
    · exact (sameMaps_setTenant (sameMap_beginWait k _)).step
  · exact .refl s

/-- Every command is completed, keeps the queue, and changes no map under a run. -/
theorem completes_exec (c : Instr) (s : State) : Completes (exec c s) s := by
  have hswT : ∀ {b : Prop} [Decidable b] {x y : State}, MapStep s x → MapStep s y → MapStep s (if b then x else y) := by
    intro b _ x y hx hy; split <;> assumption
  cases c with
  | producerIndexWrite c w =>
    exact (mapStep_tportWrite (fun s => SameMaps.step (by
      cases c <;> [exact sameMaps_producerWriteControl s _; exact sameMaps_producerWriteTenant s _ _])) s).completes
  | consumerIndexWrite c w =>
    exact (mapStep_tportWrite (fun s => SameMaps.step (by
      cases c <;> [exact sameMaps_consumerWriteControl s _; exact sameMaps_consumerWriteTenant s _ _])) s).completes
  | alertWordWrite w =>
    refine (mapStep_tportWrite (fun s => SameMaps.step ?_) s).completes
    refine SameMaps.trans (sameMaps_mapTenants (f := fun k t =>
      { t with cu := clearAlert (w.getLsbD (tenantNumber k)) t.cu }) fun _ _ => ⟨rfl, rfl⟩) (sameMaps_with_control _ _)
  | enable w =>
    refine (mapStep_tportWrite (fun s => SameMaps.step ?_) s).completes
    simp only
    split
    · exact .of_tenants (by rfl) (by rfl)
    · exact SameMaps.trans (.of_tenants (by rfl) (by rfl)) (sameMaps_enableFromStopped _)
    · exact .of_tenants (by rfl) (by rfl)
    · exact .of_tenants (by rfl) (by rfl)
  | softReset w =>
    exact (mapStep_tportWrite (fun s => SameMaps.mapStep
      (SameMaps.trans (.of_tenants (by rfl) (by rfl)) (sameMaps_beginSoftReset _)) (mapStep_endResetIfDrained _)) s).completes
  | sizeCodeStore w => exact (mapStep_tportWrite (fun s => (SameMaps.of_tenants (by rfl) (by rfl)).step) s).completes
  | controlRingBaseWrite h w => exact (mapStep_tportWrite (fun s => (SameMaps.of_tenants (by rfl) (by rfl)).step) s).completes
  | registerWriteOther o w => exact (mapStep_tportWrite (fun s => .refl s) s).completes
  | tPortBadAccess b o n => exact (hswT (SameMaps.of_tenants (by rfl) (by rfl)).step (.refl s)).completes
  | rstNAssert => exact (mapStep_of_reset (by rfl) (by rfl)).completes
  | rstNRelease => exact (SameMaps.of_tenants (by rfl) (by rfl)).step.completes
  | softResetEnd => exact (hswT (mapStep_resetBlocks s) (.refl s)).completes
  | syncEdge l => exact (hswT (.refl s) (SameMaps.of_tenants (by rfl) (by rfl)).step).completes
  | arrival l => exact completes_of_timebase _
  | waitTimeout k => exact completes_of_timebase _
  | holdoffExpiry k => exact completes_of_timebase _
  | fetchReadIssue k => exact (hswT (sameMaps_setTenant (by exact ⟨rfl, rfl⟩)).step (.refl s)).completes
  | controlReadIssue => exact (sameMaps_tryControlRead s).step.completes
  | fetchReadAck k d => exact (mapStep_readAnswered fun r => sameMap_joinQueue k _ _).completes
  | fetchReadError k =>
    exact (mapStep_readAnswered fun r => sameMap_joinQueue k
      { getTenant s k with chan := { (getTenant s k).chan with stop := true } } _).completes
  | controlFetchAck d => exact completes_execControlFetchAck d s
  | controlFetchError => exact completes_execControlFetchError s
  | refetchAck k d => exact (mapStep_readAnswered fun r => sameMap_refetched k _ _ d).completes
  | refetchError k => exact (mapStep_readAnswered fun r => sameMap_refetchFailed k _ _).completes
  | discardedReadAnswer k ok => exact completes_execDiscardedReadAnswer k ok s
  | grant => exact completes_execGrant s
  | surface => exact completes_execSurface s
  | window => exact completes_execWindow s
  | put => exact completes_execPut s
  | get => exact completes_execGet s
  | copy => exact completes_execCopy s
  | fill => exact completes_execFill s
  | mark => exact completes_execMark s
  | probe => exact completes_execProbe s
  | wait k => exact completes_execWait k s
  | takeUp => exact completes_execTakeUp s
  | heldTransactionIssue r => exact completes_execHeldTransactionIssue r s
  | elementReadAck r v => exact completes_execElementReadAck r v s
  | elementWriteAck o => exact completes_execElementWriteAck o s
  | elementErrorResponse r => exact completes_execElementErrorResponse r s
  | drainFinish => exact (mapStep_endFinishDrain s).completes
  | drainPreempt => exact completes_execDrainPreempt s
  | drainHalt => exact (mapStep_endHaltDrain s).completes
  | abortDone => exact completes_execAbortDone s
  | mapPendingApply k => exact completes_execMapPendingApply k s
  | postIssue c => exact completes_execPostIssue c s
  | postAck c => exact completes_execPostAck c s
  | recoveryAfterPost k => exact (hswT (mapStep_tenantPostAcked s k) (.refl s)).completes
  | postError c => exact completes_execPostError c s
  | discardedPostAnswer k ok => exact completes_execDiscardedPostAnswer k ok s
  | attach => exact completes_execAttach s
  | detach => exact completes_execDetach s
  | drain => exact completes_execDrain s
  | drainEnd => exact completes_execDrainEnd s
  | resumeRetry =>
    exact (completes_of_control fun c => hswT (.refl s) (sameMaps_carryOutResume s c false).step).completes
  | resumeSkip =>
    exact (completes_of_control fun c => hswT (.refl s) (sameMaps_carryOutResume s c true).step).completes
  | mapLoad => exact (completes_of_control fun c => mapStep_carryOutMap s c _).completes
  | mapClear => exact (completes_of_control fun c => mapStep_carryOutMap s c _).completes
  | setService => exact completes_execSetService s
  | query => exact completes_execQuery s
  | queryReportAck => exact (mapStep_endQuery s _ _).completes
  | queryReportError => exact (mapStep_endQuery s _ _).completes
  | note => exact (completes_of_control fun c => (sameMaps_completeControl s c _).step).completes
  | timebaseStep => exact completes_execTimebaseStep s

end

/-- Settles O2: each command is completed by a step that keeps the queue. -/
theorem everyCommandCompletesAndKeepsTheQueue : Obligations.EveryCommandCompletesAndKeepsTheQueue :=
  fun c s => let ⟨t, ht, hm⟩ := completes_exec c s; ⟨t, ht, hm.queue⟩

theorem holdsRun_eq_false_iff {t : Tenant} : holdsRun t = false ↔ t.state ≠ .running ∧ t.state ≠ .detaching ∧
    (t.state = .ready → ∀ p, t.progress = some p → p.cause ≠ .preempted) := by
  unfold holdsRun
  cases t.state <;> simp
  cases t.progress <;> simp

/-- Settles O10: the map changes at the end of a run, for a target that holds none, at a detach and at a reset. -/
theorem mapChangesOnlyWithoutARun : Obligations.MapChangesOnlyWithoutARun := by
  unfold Obligations.MapChangesOnlyWithoutARun
  intro c s t k ht hchange
  obtain ⟨t', ht', hm⟩ := completes_exec c s
  obtain rfl := Host.Outcome.next.inj (ht.symm.trans ht')
  refine holdsRun_eq_false_iff.1 ((hm.maps k).resolve_left fun ⟨hv, hs⟩ => ?_)
  exact hchange.elim (fun h => h hv) fun h => h hs

end Sys2Proof.Machine
end

section
set_option Elab.async false
/-!
# Values, translation and layouts (sections 4.2, 6.2 and 11.1 to 11.4)
-/

namespace Sys2Proof.Machine

/-! ## Conversion, bit by bit (R61 to R63) -/

theorem getLsbD_sizeMask (n i : Nat) : (sizeMask n).getLsbD i = (decide (i < 32) && decide (i < 8 * n)) := by
  rw [sizeMask, BitVec.getLsbD_ofNat, Nat.testBit_two_pow_sub_one]

theorem getLsbD_cutTo (n : Nat) (v : Word) (i : Nat) : (cutTo n v).getLsbD i = (decide (i < 8 * n) && v.getLsbD i) := by
  rw [cutTo, BitVec.getLsbD_and, getLsbD_sizeMask]
  by_cases hi : i < 32
  · rw [decide_eq_true hi, Bool.true_and, Bool.and_comm]
  · rw [BitVec.getLsbD_of_ge _ _ (Nat.le_of_not_lt hi), Bool.false_and, Bool.and_false]

section
variable {v : Word} {s d i : Nat}

/-- Widening fills with zeroes (R62, ZERO). -/
theorem getLsbD_widen_zero : (widen modeZero s d v).getLsbD i = (decide (i < 8 * s) && v.getLsbD i) := by
  rw [widen, if_neg (by decide), if_neg (by decide), getLsbD_cutTo]

/-- Widening fills with the sign (R62, SIGN). -/
theorem getLsbD_widen_sign (hs : 0 < s) (hsd : s < d) (hi : i < 32) : (widen modeSign s d v).getLsbD i =
    (decide (i < 8 * d) && (if i < 8 * s then v.getLsbD i else v.getLsbD (8 * s - 1))) := by
  have htop : 8 * s - 1 < 8 * s := by omega
  have hle : i < 8 * s → i < 8 * d := by omega
  rw [widen, if_pos rfl, getLsbD_cutTo]
  cases hsign : v.getLsbD (8 * s - 1) <;> by_cases his : i < 8 * s <;>
    simp only [getLsbD_cutTo, getLsbD_sizeMask, BitVec.getLsbD_or, BitVec.getLsbD_not, htop, his, hi, hle, decide_true,
      decide_false, Bool.true_and, Bool.false_and, Bool.and_false, Bool.and_true, Bool.or_false, Bool.or_true,
      Bool.not_true, Bool.not_false, if_true, if_false, Bool.false_eq_true]

/-- The bits of a value of 1 or 2 bytes, repeated. -/
theorem getLsbD_repeatBytes (hs : s = 1 ∨ s = 2) (hi : i < 32) :
    (repeatBytes s v).getLsbD i = v.getLsbD (i % (8 * s)) := by
  rcases hs with rfl | rfl
  · simp only [repeatBytes, BitVec.getLsbD_append, BitVec.getLsbD_extractLsb', Nat.zero_add]
    split
    · simp [Nat.mod_eq_of_lt ‹i < 8›, ‹i < 8›]
    · split
      · rw [show i % (8 * 1) = i - 8 by omega]; simp; omega
      · split
        · rw [show i % (8 * 1) = i - 8 - 8 by omega]; simp; omega
        · rw [show i % (8 * 1) = i - 8 - 8 - 8 by omega]; simp; omega
  · simp only [repeatBytes, BitVec.getLsbD_append, BitVec.getLsbD_extractLsb', Nat.zero_add]
    split
    · rw [show i % (8 * 2) = i by omega]; simp; omega
    · rw [show i % (8 * 2) = i - 16 by omega]; simp; omega

/-- Widening repeats the source bytes (R62, REPLICATE). -/
theorem getLsbD_widen_replicate (hs : s = 1 ∨ s = 2) (hi : i < 32) :
    (widen modeReplicate s d v).getLsbD i = (decide (i < 8 * d) && v.getLsbD (i % (8 * s))) := by
  rw [widen, if_neg (by decide), if_pos rfl, getLsbD_cutTo, getLsbD_repeatBytes hs hi]

/-- Narrowing keeps the low bytes (R63, LOW). -/
theorem getLsbD_narrow_low : (narrow modeLow s d v).getLsbD i = (decide (i < 8 * d) && v.getLsbD i) := by
  rw [narrow, if_neg (by decide), getLsbD_cutTo]

/-- Narrowing keeps the high bytes (R63, HIGH). -/
theorem getLsbD_narrow_high (hds : d < s) :
    (narrow modeHigh s d v).getLsbD i = (decide (i < 8 * d) && v.getLsbD (8 * (s - d) + i)) := by
  rw [narrow, if_pos rfl, getLsbD_cutTo, BitVec.getLsbD_ushiftRight, getLsbD_cutTo]
  by_cases hi : i < 8 * d
  · simp [hi, show 8 * (s - d) + i < 8 * s by omega]
  · simp [hi]

theorem convert_of_lt (h : s < d) (mode : Nat) : convert mode s d v = widen mode s d v := by
  rw [convert, if_neg (by omega), if_pos h]

theorem convert_of_gt (h : d < s) (mode : Nat) : convert mode s d v = narrow mode s d v := by
  rw [convert, if_neg (by omega), if_neg (by omega)]

theorem convert_self (n mode : Nat) : convert mode n n v = cutTo n v := by rw [convert, if_pos rfl]

end

/-- A value that fits its size is not cut. -/
theorem cutTo_of_fits {n : Nat} {v : Word} (h : v.toNat < 2 ^ (8 * n)) : cutTo n v = v := by
  refine BitVec.eq_of_getLsbD_eq fun i hi => ?_
  rw [getLsbD_cutTo]
  by_cases hin : i < 8 * n
  · simp [hin]
  · have : v.getLsbD i = false := Nat.testBit_lt_two_pow (lt_of_lt_of_le h (Nat.pow_le_pow_right (by omega) (by omega)))
    simp [this]

/-- Settles O11: each mode bit by bit, and the rules' tables by evaluation. -/
theorem wideningAndNarrowing : Obligations.WideningAndNarrowing := by
  unfold Obligations.WideningAndNarrowing
  refine ⟨fun v s d i h hi => ?_, fun v s d i h hi => ?_, fun mode n v _ hv => ?_, fun mode n v i _ _ => ?_, ?_⟩
  · have hsd : s < d := by omega
    rw [convert_of_lt hsd, convert_of_lt hsd, convert_of_lt hsd]
    exact ⟨getLsbD_widen_zero, getLsbD_widen_sign (by omega) hsd hi, getLsbD_widen_replicate (by omega) hi⟩
  · have hds : d < s := by omega
    rw [convert_of_gt hds, convert_of_gt hds]
    exact ⟨getLsbD_narrow_low, getLsbD_narrow_high hds⟩
  · rw [convert_self, cutTo_of_fits hv]
  · rw [convert_self, getLsbD_cutTo]
  · decide

/-! ## Translation (R101, R102) -/

section
variable {seg : Segment} {p o : Nat}

theorem translateAccess_of_absent (ho : o < Config.pageBytes) (hv : (segGet seg p).v = false) (acc : Access) :
    translateAccess seg (p * Config.pageBytes + o) acc = .fault .faultAbsent := by
  simp [translateAccess, pageAddress_div ho, hv]

theorem translateAccess_read_of_not_permitted (ho : o < Config.pageBytes) (hv : (segGet seg p).v = true)
    (hr : (segGet seg p).r = false) : translateAccess seg (p * Config.pageBytes + o) .read = .fault .faultNoRead := by
  simp [translateAccess, pageAddress_div ho, hv, hr]

theorem translateAccess_write_of_permitted (ho : o < Config.pageBytes) (hv : (segGet seg p).v = true)
    (hw : (segGet seg p).w = true) :
    translateAccess seg (p * Config.pageBytes + o) .write = .phys (pagePhys (segGet seg p).ppn o) := by
  simp [translateAccess, pageAddress_div ho, pageAddress_mod ho, hv, hw, pagePhys]

end

/-- Settles O13: by the page and the offset of the address, one lemma for each answer. -/
theorem translationChecksAndAddress : Obligations.TranslationChecksAndAddress := by
  unfold Obligations.TranslationChecksAndAddress
  intro seg a _
  have ho : a % 16384 < Config.pageBytes := Nat.mod_lt _ (by decide)
  have ha : a / 16384 * Config.pageBytes + a % 16384 = a := Nat.div_add_mod' a 16384
  refine ⟨fun hv => ?_, fun hv => ⟨fun hr => ?_, fun hw => ?_, _, pagePhys_toNat _ ho, fun hr => ?_, fun hw => ?_⟩⟩
  · have h := fun acc => translateAccess_of_absent ho hv acc
    rw [ha] at h
    exact ⟨h .read, h .write⟩
  · rw [← translateAccess_read_of_not_permitted ho hv hr, ha]
  · rw [← translateAccess_write_of_not_permitted ho hv hw, ha]
  · rw [← translateAccess_read_of_permitted ho hv hr, ha]
  · rw [← translateAccess_write_of_permitted ho hv hw, ha]

/-! ## Map entry words (section 11.2) -/

theorem getLsbD_wordOfEntry_entryOfWord (w : Word) {i : Nat} (hi : i < 32) :
    (wordOfEntry (entryOfWord w)).getLsbD i = (w.getLsbD i && !(decide (26 ≤ i) && decide (i ≤ 28))) := by
  have hcases : i < 26 ∨ (26 ≤ i ∧ i ≤ 28) ∨ i = 29 ∨ i = 30 ∨ i = 31 := by omega
  simp only [wordOfEntry, entryOfWord, BitVec.getLsbD_append]
  rcases hcases with h | ⟨h1, h2⟩ | rfl | rfl | rfl
  · simp [h, show ¬ 26 ≤ i by omega]
  · simp [h1, h2, show ¬ i < 26 by omega, show i - 26 < 3 by omega]
  · simp
  · simp
  · simp

theorem wordOfEntry_clearEntry : wordOfEntry clearEntry = 0 := by decide

theorem getTenant_of_tenants_default {s : State} (h : s.tenants = {}) (k : TenantId) : getTenant s k = {} := by
  rw [getTenant_of_tenants_eq (t := State.reset) h]
  fin_cases k <;> rfl

/-- Settles O15: the fields of `entryOfWord`, the bits of `wordOfEntry`, and the clear entry that clears and resets
leave. -/
theorem mapEntryWordLayout : Obligations.MapEntryWordLayout := by
  unfold Obligations.MapEntryWordLayout
  refine ⟨fun r n i hi => ?_, fun w => ⟨rfl, rfl, rfl, rfl⟩, fun w i hi => getLsbD_wordOfEntry_entryOfWord w hi,
    by decide, by decide, by decide, by decide, fun seg first count p hs hf h1 h2 => ?_, fun s k p => ?_⟩
  · simp [loadEntries, hi, wordAt]
  · rw [mapOpSegment, segGet_segClear hs hf, if_pos ⟨h1, h2⟩, wordOfEntry_clearEntry]
  · rw [getTenant_of_tenants_default (s := State.reset) rfl, getTenant_of_tenants_default (s := resetBlocks s) rfl,
      detachTenant_segment]
    exact ⟨wordOfEntry_clearEntry, wordOfEntry_clearEntry, wordOfEntry_clearEntry⟩

end Sys2Proof.Machine
end

section
set_option Elab.async false
/-!
# The layouts of records, completions and reports, and the register window (sections 11.1 to 11.5)
-/

namespace Sys2Proof.Machine

/-! ## Three flags in the low bits of a byte, the others 0 -/

section
variable (a b c : Bool)

theorem flagsByte_bit0 : (BitVec.ofNat 8 (a.toNat + 2 * b.toNat + 4 * c.toNat)).getLsbD 0 = a := by
  revert a b c; decide

theorem flagsByte_bit1 : (BitVec.ofNat 8 (a.toNat + 2 * b.toNat + 4 * c.toNat)).getLsbD 1 = b := by
  revert a b c; decide

theorem flagsByte_bit2 : (BitVec.ofNat 8 (a.toNat + 2 * b.toNat + 4 * c.toNat)).getLsbD 2 = c := by
  revert a b c; decide

theorem flagsByte_rest : (BitVec.ofNat 8 (a.toNat + 2 * b.toNat + 4 * c.toNat)).extractLsb' 3 5 = 0 := by
  revert a b c; decide

end

/-! ## Kind codes (section 11.1.2) -/

theorem kindOfCode_eq_some_iff {n : Nat} {kd : Kind} : kindOfCode n = some kd ↔ (n, kd) ∈
    [(0x01, Kind.surface), (0x02, .window), (0x03, .put), (0x04, .get), (0x05, .copy), (0x06, .fill), (0x07, .wait),
     (0x08, .mark), (0x09, .probe), (0x21, .attach), (0x22, .detach), (0x23, .drain), (0x24, .resume),
     (0x25, .mapLoad), (0x26, .mapClear), (0x27, .setService), (0x28, .query), (0x29, .note)] := by
  constructor
  · intro h
    unfold kindOfCode at h
    split at h <;> cases h <;> decide
  · intro h
    have hcodes : ∀ q ∈ [(0x01, Kind.surface), (0x02, .window), (0x03, .put), (0x04, .get), (0x05, .copy),
        (0x06, .fill), (0x07, .wait), (0x08, .mark), (0x09, .probe), (0x21, .attach), (0x22, .detach), (0x23, .drain),
        (0x24, .resume), (0x25, .mapLoad), (0x26, .mapClear), (0x27, .setService), (0x28, .query), (0x29, .note)],
        kindOfCode q.1 = some q.2 := by decide
    exact hcodes (n, kd) h

/-- The tenant kinds have the codes 1 to 9. -/
theorem isTenantKind_iff_code {n : Nat} {kd : Kind} (h : kindOfCode n = some kd) : isTenantKind kd = true ↔ n ≤ 9 := by
  unfold kindOfCode at h
  split at h <;> cases h <;> decide

/-! ## Completions (sections 9.2 and 11.3) -/

section
variable {k : TenantId} {t : Tenant} {q : Index} {status : Status} {reason : Reason} {interim : Bool}
  {elements extra wraps : Nat} {cursor aux : Word}

theorem tenantCompletion_of_record {r : Record} (h : t.current = some ⟨q, .record r⟩) :
    tenantCompletion k t status reason interim elements extra wraps cursor aux =
      { seq := q, kind := kindByte r, tag := recordTag r, status := status, reason := reason, interim := interim,
        urgent := interim || notifyNow r, context := tenantNumber k, elements := elements, extra := extra,
        cursorAfter := cursor, mapVersion := t.mapVersion, wraps := wraps, aux := aux } := by
  simp only [tenantCompletion, h]

theorem tenantCompletion_of_failed (h : t.current = some ⟨q, .failed⟩) :
    tenantCompletion k t status reason interim elements extra wraps cursor aux =
      { seq := q, kind := 0, tag := 0, status := status, reason := reason, interim := interim, urgent := interim,
        context := tenantNumber k, elements := elements, extra := extra, cursorAfter := cursor,
        mapVersion := t.mapVersion, wraps := wraps, aux := aux } := by
  simp only [tenantCompletion, h, Bool.or_false]

end

/-- Settles O16: the codes by evaluation, the fields of the layouts by their place in the concatenation. -/
theorem completionAndReportLayout : Obligations.CompletionAndReportLayout := by
  unfold Obligations.CompletionAndReportLayout
  refine ⟨fun r o b => ⟨rfl, rfl, rfl, rfl, rfl, rfl, rfl, rfl, rfl⟩, fun k t st rs im el ex wr cu ax =>
    ⟨fun q r h => tenantCompletion_of_record h, fun q h => tenantCompletion_of_failed h⟩,
    fun n kd => kindOfCode_eq_some_iff, fun n kd h => isTenantKind_iff_code h, by decide, by decide, by decide,
    by decide, by decide, by decide, by decide, ?_, fun lap c => ?_, fun r => ?_⟩
  · rintro st (rfl | rfl | rfl | rfl) <;> rfl
  all_goals
    simp only [encodeCompletion, completionFlags, encodeReport, reportFlags, BitVec.extractLsb'_append_eq_of_le (w := 8),
      BitVec.extractLsb'_append_eq_of_le (w := 16), BitVec.extractLsb'_append_eq_of_le (w := 32),
      BitVec.extractLsb'_append_eq_of_add_le (w := 8), BitVec.extractLsb'_append_eq_of_add_le (w := 16),
      BitVec.extractLsb'_append_eq_of_add_le (w := 32), BitVec.getLsbD_append (m := 8),
      BitVec.getLsbD_append (m := 16), BitVec.getLsbD_append (m := 32), BitVec.extractLsb'_eq_self,
      Nat.reduceLT, Nat.reduceLeDiff, Nat.reduceSub, Nat.reduceAdd, if_false, if_true, flagsByte_bit0, flagsByte_bit1,
      flagsByte_bit2, flagsByte_rest, and_self]

end Sys2Proof.Machine
end

section
set_option Elab.async false
/-!
# The register window (sections 2.2, 9.4, 9.5 and 11.5)
-/

namespace Sys2Proof

/-- The engine word is decoded by its two fields (R159). -/
theorem decodeEngineWrite_enable {w : Word} (h : Instr.wellFormed (.enable w) = true) :
    decodeEngineWrite w = .enable w := by
  simp only [Instr.wellFormed, Bool.and_eq_true, Bool.not_eq_true'] at h
  simp [decodeEngineWrite, h]

theorem decodeEngineWrite_softReset {w : Word} (h : Instr.wellFormed (.softReset w) = true) :
    decodeEngineWrite w = .softReset w := by
  simp only [Instr.wellFormed] at h
  simp [decodeEngineWrite, h]

theorem decodeEngineWrite_sizeCodeStore {w : Word} (h : Instr.wellFormed (.sizeCodeStore w) = true) :
    decodeEngineWrite w = .sizeCodeStore w := by
  simp only [Instr.wellFormed, Bool.and_eq_true, Bool.not_eq_true'] at h
  simp [decodeEngineWrite, h]

/-- An offset with no writable word decodes to the write with no effect. -/
theorem decodeTPortWrite_other {o : BitVec 8} {w : Word} (h : offsetHasNoWrite o = true) :
    accessAligned o 4 = true ∧ decodeTPortWrite o 4 w = .registerWriteOther o w := by
  simp only [offsetHasNoWrite, Bool.and_eq_true, Bool.or_eq_true, beq_iff_eq, decide_eq_true_eq] at h
  obtain ⟨hal, hoff⟩ := h
  have hacc : accessAligned o 4 = true := by simp [accessAligned, hal]
  refine ⟨hacc, ?_⟩
  rw [decodeTPortWrite, if_pos hacc]
  simp only
  rw [if_neg (by omega), if_neg (by omega), if_neg (by omega), if_neg (by omega), if_neg (by omega)]

/-- The index words of a context stand at 8 times its number. -/
theorem decodeTPortWrite_index (c : Ctx) (w : Word) :
    accessAligned (BitVec.ofNat 8 (0x20 + 8 * ctxNumber c)) 4 = true ∧
    decodeTPortWrite (BitVec.ofNat 8 (0x20 + 8 * ctxNumber c)) 4 w = .producerIndexWrite c w ∧
    accessAligned (BitVec.ofNat 8 (0x24 + 8 * ctxNumber c)) 4 = true ∧
    decodeTPortWrite (BitVec.ofNat 8 (0x24 + 8 * ctxNumber c)) 4 w = .consumerIndexWrite c w := by
  cases c with
  | control => exact ⟨rfl, rfl, rfl, rfl⟩
  | tenant k => fin_cases k <;> exact ⟨rfl, rfl, rfl, rfl⟩

end Sys2Proof

namespace Sys2Proof.Machine

/-- Settles O17: each register write by its offset, the engine word by its two fields. -/
theorem registerWritesDecodeToTheirCommands : Obligations.RegisterWritesDecodeToTheirCommands := by
  unfold Obligations.RegisterWritesDecodeToTheirCommands
  refine ⟨fun i hwf hreg => ?_, fun w => ⟨?_, rfl, rfl, rfl, rfl, rfl, fun k => ?_⟩⟩
  · cases i with
    | producerIndexWrite c w =>
      obtain ⟨hacc, hdec, _, _⟩ := decodeTPortWrite_index c w
      exact ⟨_, w, rfl, hacc, hdec⟩
    | consumerIndexWrite c w =>
      obtain ⟨_, _, hacc, hdec⟩ := decodeTPortWrite_index c w
      exact ⟨_, w, rfl, hacc, hdec⟩
    | alertWordWrite w => exact ⟨_, w, rfl, rfl, rfl⟩
    | enable w => exact ⟨_, w, rfl, rfl, decodeEngineWrite_enable hwf⟩
    | softReset w => exact ⟨_, w, rfl, rfl, decodeEngineWrite_softReset hwf⟩
    | sizeCodeStore w => exact ⟨_, w, rfl, rfl, decodeEngineWrite_sizeCodeStore hwf⟩
    | controlRingBaseWrite half w => cases half <;> exact ⟨_, w, rfl, rfl, rfl⟩
    | registerWriteOther o w => exact ⟨o, w, rfl, decodeTPortWrite_other hwf⟩
    | _ => cases hreg
  · rintro i (rfl | rfl | rfl) <;> rfl
  · fin_cases k <;> exact ⟨_, _, rfl, rfl, rfl, rfl⟩

/-! ## Reads (R2, R152, R158, R181, R182) -/

section
variable {s : State}

theorem readRegister_error {o : BitVec 8} {n : Nat} (h : s.rstAsserted = true ∨ n ≠ 4 ∨ o.toNat % 4 ≠ 0) :
    readRegister s o n = .error := by
  have hc : (s.rstAsserted || !accessAligned o n) = true := by
    simp only [accessAligned, Bool.or_eq_true, Bool.not_eq_true', Bool.and_eq_false_iff, beq_eq_false_iff_ne]
    exact h
  rw [readRegister, if_pos hc]

/-- A read that is taken answers by its offset. -/
theorem readRegister_taken {o : BitVec 8} (hr : s.rstAsserted = false) (ho : o.toNat % 4 = 0) :
    readRegister s o 4 =
      if o.toNat = 0x00 then .data Config.identification
      else if o.toNat = 0x04 then .data (engineWord s)
      else if o.toNat = 0x08 then .data (baseLowWord s)
      else if o.toNat = 0x0C then .data (baseHighWord s)
      else if o.toNat = 0x10 then .data (alertWord s)
      else if 0x20 ≤ o.toNat ∧ o.toNat < 0x60 then
        if o.toNat % 8 = 0 then .data ((producerOf s (ctxOfNumber ((o.toNat - 0x20) / 8))).setWidth 32)
        else .data ((consumerOf s (ctxOfNumber ((o.toNat - 0x20) / 8))).setWidth 32)
      else .data 0 := by
  have hc : (s.rstAsserted || !accessAligned o 4) = false := by simp [accessAligned, hr, ho]
  rw [readRegister, if_neg (by simp [hc])]

/-- The fields of the engine word as it reads (R158). -/
theorem engineWord_fields (s : State) :
    (engineWord s).extractLsb' 0 4 = 0 ∧ (engineWord s).extractLsb' 4 3 = s.sqCode ∧
    (engineWord s).getLsbD 7 = false ∧ (engineWord s).extractLsb' 8 3 = s.cqCode ∧
    (engineWord s).extractLsb' 11 5 = 0 ∧
    (engineWord s).extractLsb' 16 2 = BitVec.ofNat 2 (engineCode s.engine) ∧
    (engineWord s).extractLsb' 18 14 = 0 := by
  unfold engineWord
  generalize s.sqCode = sq
  generalize s.cqCode = cq
  cases s.engine <;> revert sq cq <;> decide

/-- Eight bits written side by side. -/
theorem eightBits : ∀ a b c d e f g h : Bool,
    let w := BitVec.ofBool h ++ BitVec.ofBool g ++ BitVec.ofBool f ++ BitVec.ofBool e ++ BitVec.ofBool d ++
      BitVec.ofBool c ++ BitVec.ofBool b ++ BitVec.ofBool a
    w.getLsbD 0 = a ∧ w.getLsbD 1 = b ∧ w.getLsbD 2 = c ∧ w.getLsbD 3 = d ∧ w.getLsbD 4 = e ∧ w.getLsbD 5 = f ∧
      w.getLsbD 6 = g ∧ w.getLsbD 7 = h := by decide

theorem contextBits_getLsbD (f : Option Alert → Bool) (s : State) :
    (contextBits f s).getLsbD 0 = f s.control.cu.alert ∧
    ∀ k : TenantId, (contextBits f s).getLsbD (k.val + 1) = f (getTenant s k).cu.alert := by
  obtain ⟨h0, h1, h2, h3, h4, h5, h6, h7⟩ := eightBits (f s.control.cu.alert) (f (getTenant s 0).cu.alert)
    (f (getTenant s 1).cu.alert) (f (getTenant s 2).cu.alert) (f (getTenant s 3).cu.alert)
    (f (getTenant s 4).cu.alert) (f (getTenant s 5).cu.alert) (f (getTenant s 6).cu.alert)
  refine ⟨h0, fun k => ?_⟩
  fin_cases k
  exacts [h1, h2, h3, h4, h5, h6, h7]

/-- The bits of the alert word (R152). -/
theorem alertWord_bits (s : State) :
    (alertWord s).getLsbD 0 = (alertOf s .control).isSome ∧
    (alertWord s).getLsbD 8 = (alertOf s .control == some .post) ∧
    (∀ k : TenantId, (alertWord s).getLsbD (k.val + 1) = (alertOf s (.tenant k)).isSome ∧
      (alertWord s).getLsbD (9 + k.val) = (alertOf s (.tenant k) == some .post)) ∧
    (alertWord s).extractLsb' 16 16 = 0 := by
  obtain ⟨hp0, hp⟩ := contextBits_getLsbD alertPresent s
  obtain ⟨hq0, hq⟩ := contextBits_getLsbD alertIsPost s
  have hlow : ∀ i, i < 8 → (alertWord s).getLsbD i = (contextBits alertPresent s).getLsbD i := fun i hi => by
    rw [alertWord, BitVec.getLsbD_append (m := 8), if_pos hi]
  have hhigh : ∀ i, i < 8 → (alertWord s).getLsbD (8 + i) = (contextBits alertIsPost s).getLsbD i := fun i hi => by
    rw [alertWord, BitVec.getLsbD_append (m := 8), if_neg (by omega), BitVec.getLsbD_append (m := 8),
      Nat.add_sub_cancel_left, if_pos hi]
  refine ⟨?_, ?_, fun k => ⟨?_, ?_⟩, ?_⟩
  · rw [hlow 0 (by decide), hp0]; rfl
  · rw [hhigh 0 (by decide), hq0]; rfl
  · rw [hlow _ (by omega), hp k]; rfl
  · rw [show 9 + k.val = 8 + (k.val + 1) by omega, hhigh _ (by omega), hq k]; rfl
  · rw [alertWord, BitVec.extractLsb'_append_eq_of_le (w := 8) (by decide),
      BitVec.extractLsb'_append_eq_of_le (w := 8) (by decide), BitVec.extractLsb'_eq_self]

theorem readRegister_baseLow (hr : s.rstAsserted = false) :
    readRegister s 0x08 4 = .data (s.base.extractLsb' 0 32) := by rw [readRegister_taken hr rfl]; rfl

theorem readRegister_baseHigh (hr : s.rstAsserted = false) :
    readRegister s 0x0C 4 = .data ((s.base.extractLsb' 32 8).setWidth 32) := by rw [readRegister_taken hr rfl]; rfl

end

/-- Settles O18: the answer by the offset, then the fields of each word. -/
theorem registerReads : Obligations.RegisterReads := by
  unfold Obligations.RegisterReads
  refine ⟨fun s hr => ⟨?_, ⟨engineWord s, ?_, engineWord_fields s⟩, readRegister_baseLow hr, readRegister_baseHigh hr,
    ⟨alertWord s, ?_, alertWord_bits s⟩, ?_, ?_, fun k => ?_, fun o ho hout => ?_⟩, fun s o n => readRegister_error⟩
  · rw [readRegister_taken hr rfl]; rfl
  · rw [readRegister_taken hr rfl]; rfl
  · rw [readRegister_taken hr rfl]; rfl
  · rw [readRegister_taken hr rfl]; rfl
  · rw [readRegister_taken hr rfl]; rfl
  · fin_cases k <;> exact ⟨by rw [readRegister_taken hr rfl]; rfl, by rw [readRegister_taken hr rfl]; rfl⟩
  · rw [readRegister_taken hr ho, if_neg (by omega), if_neg (by omega), if_neg (by omega), if_neg (by omega),
      if_neg (by omega), if_neg (by omega)]

/-! ## Writes the T-port takes (R24, R181) -/

section
variable {s : State} {act : State → State}

theorem tportWrite_taken (h : hostTaken s) : tportWrite s act = act { s with tport := some .ok } := by
  rw [tportWrite, if_neg (by simp [h.1])]
  simp only
  rw [if_neg h.2]

theorem tportWrite_resetting (hr : s.rstAsserted = false) (he : s.engine = .resetting) :
    tportWrite s act = { s with tport := some .ok } := by
  rw [tportWrite, if_neg (by simp [hr])]
  simp only
  rw [if_pos he]

theorem tportWrite_underReset (hr : s.rstAsserted = true) : tportWrite s act = { s with tport := some .error } := by
  rw [tportWrite, if_pos hr]

/-- A write of one half leaves the other, and bits 0 to 5 stay 0 (R182). -/
theorem storeBase_low (b : Phys) (w : Word) :
    (storeBase b .low w).extractLsb' 6 26 = w.extractLsb' 6 26 ∧
    (storeBase b .low w).extractLsb' 32 8 = b.extractLsb' 32 8 ∧ (storeBase b .low w).extractLsb' 0 6 = 0 := by
  have h : storeBase b .low w = b.extractLsb' 32 8 ++ (w.extractLsb' 6 26 ++ (0 : BitVec 6)) := rfl
  rw [h]
  refine ⟨?_, ?_, ?_⟩
  · rw [BitVec.extractLsb'_append_eq_of_add_le (w := 32) (by decide),
      BitVec.extractLsb'_append_eq_of_le (w := 6) (by decide), BitVec.extractLsb'_eq_self]
  · rw [BitVec.extractLsb'_append_eq_of_le (w := 32) (by decide), BitVec.extractLsb'_eq_self]
  · rw [BitVec.extractLsb'_append_eq_of_add_le (w := 32) (by decide),
      BitVec.extractLsb'_append_eq_of_add_le (w := 6) (by decide), BitVec.extractLsb'_eq_self]

theorem storeBase_high (b : Phys) (w : Word) :
    (storeBase b .high w).extractLsb' 32 8 = w.extractLsb' 0 8 ∧
    (storeBase b .high w).extractLsb' 6 26 = b.extractLsb' 6 26 ∧ (storeBase b .high w).extractLsb' 0 6 = 0 := by
  have h : storeBase b .high w = w.extractLsb' 0 8 ++ (b.extractLsb' 6 26 ++ (0 : BitVec 6)) := rfl
  rw [h]
  refine ⟨?_, ?_, ?_⟩
  · rw [BitVec.extractLsb'_append_eq_of_le (w := 32) (by decide), BitVec.extractLsb'_eq_self]
  · rw [BitVec.extractLsb'_append_eq_of_add_le (w := 32) (by decide),
      BitVec.extractLsb'_append_eq_of_le (w := 6) (by decide), BitVec.extractLsb'_eq_self]
  · rw [BitVec.extractLsb'_append_eq_of_add_le (w := 32) (by decide),
      BitVec.extractLsb'_append_eq_of_add_le (w := 6) (by decide), BitVec.extractLsb'_eq_self]

/-- A base write never touches what ENABLE latched. -/
theorem control_of_controlRingBaseWrite {t u : State} {half : Half} {w : Word}
    (h : exec (.controlRingBaseWrite half w) t = .next u) : u.control = t.control := by
  have hu : tportWrite t (fun s => { s with base := storeBase s.base half w }) = u := Host.Outcome.next.inj h
  rcases tportWrite_cases t (fun s => { s with base := storeBase s.base half w }) with
    ⟨_, he⟩ | ⟨_, _, he⟩ | ⟨_, _, he⟩ <;> rw [← hu, he]

end

/-- Settles O19: the two halves as fields of the stored base, and the latch of `enableFromOff`. -/
theorem controlRingBaseHalves : Obligations.ControlRingBaseHalves := by
  unfold Obligations.ControlRingBaseHalves
  refine ⟨fun s w h => ⟨_, congrArg Host.Outcome.next (tportWrite_taken h), storeBase_low _ _⟩,
    fun s w h => ⟨_, congrArg Host.Outcome.next (tportWrite_taken h), storeBase_high _ _⟩,
    fun s half w hr he => congrArg Host.Outcome.next (tportWrite_resetting hr he), fun s t w hr he ht => ?_,
    fun s hr => ⟨readRegister_baseLow hr, readRegister_baseHigh hr⟩⟩
  have hlatch : t.control.sqBase = s.base := by
    have h : hostTaken s := ⟨hr, by simp [he]⟩
    rw [← Host.Outcome.next.inj ht, tportWrite_taken h]
    simp only [storeSizeCodes, he]
    rfl
  exact ⟨hlatch, fun u half w' hu => by rw [control_of_controlRingBaseWrite hu, hlatch]⟩

theorem answered {s : State} {act : State → State} {t : State} (h : hostTaken s)
    (he : act { s with tport := some .ok } = t) :
    Host.Outcome.next (φ := Fault) (ρ := Refusal) (tportWrite s act) = Host.Outcome.next t :=
  congrArg Host.Outcome.next ((tportWrite_taken h).trans he)

/-! ## Index words (R23 to R25, R150) -/

theorem recordAlert_index (old : Option Alert) :
    recordAlert old .index = some (if old = some .post then .post else .index) := by
  rcases old with _ | _ | _ <;> rfl

theorem recordAlert_post (old : Option Alert) : recordAlert old .post = some .post := by
  rcases old with _ | _ | _ <;> rfl

section
variable {s : State} {k : TenantId} {v : Index}

theorem producerWriteTenant_taken (ha : attached (getTenant s k) = true)
    (hv : (v - (getTenant s k).chan.fetchIndex).toNat ≤ ringSlots (getTenant s k).sqCode) :
    producerWriteTenant s k v = setTenant s k { getTenant s k with producer := v } := by
  rw [producerWriteTenant]
  simp only
  rw [if_pos ⟨ha, hv⟩]

theorem indexAlertTenant_eq (s : State) (k : TenantId) :
    indexAlertTenant s k = setTenant s k { getTenant s k with
      cu := { (getTenant s k).cu with
        alert := some (if (getTenant s k).cu.alert = some .post then .post else .index) } } := by
  rw [indexAlertTenant, recordAlert_index]

theorem indexAlertControl_eq (s : State) :
    indexAlertControl s = { s with control := { s.control with
      cu := { s.control.cu with alert := some (if s.control.cu.alert = some .post then .post else .index) } } } := by
  rw [indexAlertControl, recordAlert_index]

theorem producerWriteTenant_refused (h : attached (getTenant s k) = false ∨
    ringSlots (getTenant s k).sqCode < (v - (getTenant s k).chan.fetchIndex).toNat) :
    producerWriteTenant s k v = indexAlertTenant s k := by
  rw [producerWriteTenant]
  refine if_neg ?_
  rintro ⟨ha, hv⟩
  rcases h with h | h
  · rw [h] at ha; cases ha
  · omega

theorem serving_eq_false_of_off (h : s.engine = .off) : serving s = false := by simp [serving, h]

theorem producerWriteControl_taken (hs : serving s = true)
    (hv : (v - controlReadPoint s.control).toNat ≤ ringSlots s.control.sqCode) :
    producerWriteControl s v = { s with control := { s.control with producer := v } } := by
  rw [producerWriteControl, if_pos hs, if_pos hv]

theorem producerWriteControl_refused (hs : serving s = true)
    (hv : ringSlots s.control.sqCode < (v - controlReadPoint s.control).toNat) :
    producerWriteControl s v = indexAlertControl s := by
  rw [producerWriteControl, if_pos hs, if_neg (Nat.not_le.2 hv)]

theorem producerWriteControl_off (h : s.engine = .off) : producerWriteControl s v = s := by
  rw [producerWriteControl, if_neg (Bool.eq_false_iff.1 (serving_eq_false_of_off h))]

end

/-- Settles O20: the branches of the two producer writes. -/
theorem producerIndexWrites : Obligations.ProducerIndexWrites := by
  unfold Obligations.ProducerIndexWrites
  intro s w h
  refine ⟨fun k ha hv => ?_, fun k href => ?_, fun hs hv => ?_, fun hs hv => ?_, fun ho => ?_⟩
  · exact answered h (producerWriteTenant_taken (s := { s with tport := some .ok }) ha hv)
  · exact answered h ((producerWriteTenant_refused (s := { s with tport := some .ok }) href).trans
      (indexAlertTenant_eq _ k))
  · exact answered h (producerWriteControl_taken (s := { s with tport := some .ok }) hs hv)
  · exact answered h ((producerWriteControl_refused (s := { s with tport := some .ok }) hs hv).trans
      (indexAlertControl_eq _))
  · exact answered h (producerWriteControl_off (s := { s with tport := some .ok }) ho)

section
variable {s : State} {k : TenantId} {v : Index} {cu : CompletionUnit}

theorem consumerAdmitted_iff :
    consumerAdmitted cu v = true ↔ (v - cu.consumer).toNat ≤ (cu.writeIndex - cu.consumer).toNat := by
  simp [consumerAdmitted]

theorem consume_eq (cu : CompletionUnit) (v : Index) :
    consume cu v = { cu with
      consumer := v,
      urgent := if cu.writeIndex = v ∨ (cu.lastUrgent - cu.consumer).toNat < (v - cu.consumer).toNat then false
        else cu.urgent } := by
  simp only [consume, consumesUrgent, Bool.or_eq_true, beq_iff_eq, decide_eq_true_eq]

theorem consumerWriteTenant_taken (hs : serving s = true) (ha : attached (getTenant s k) = true)
    (hv : consumerAdmitted (getTenant s k).cu v = true) (hne : v ≠ (getTenant s k).cu.consumer) :
    consumerWriteTenant s k v = setTenant s k (tryPostTenant { getTenant s k with
      cu := consume (getTenant s k).cu v,
      holdoffTimer := if (getTenant s k).cu.writeIndex = v then none else (getTenant s k).holdoffTimer,
      holdoffExpired := if (getTenant s k).cu.writeIndex = v then false else (getTenant s k).holdoffExpired }) := by
  rw [consumerWriteTenant]
  simp only
  rw [if_pos ⟨ha, hv⟩, if_neg hne, if_pos hs]
  by_cases hw : (getTenant s k).cu.writeIndex = v
  · simp only [hw, if_true]
  · simp only [hw, if_false]

theorem consumerWriteTenant_equal (ha : attached (getTenant s k) = true) (he : v = (getTenant s k).cu.consumer) :
    consumerWriteTenant s k v = s := by
  have hv : consumerAdmitted (getTenant s k).cu v = true := consumerAdmitted_iff.2 (by simp [he])
  rw [consumerWriteTenant]
  simp only
  rw [if_pos ⟨ha, hv⟩, if_pos he]

theorem consumerWriteTenant_refused (h : attached (getTenant s k) = false ∨
    consumerAdmitted (getTenant s k).cu v = false) : consumerWriteTenant s k v = indexAlertTenant s k := by
  rw [consumerWriteTenant]
  simp only
  refine if_neg ?_
  rintro ⟨ha, hv⟩
  rcases h with h | h
  · rw [h] at ha; cases ha
  · rw [h] at hv; cases hv

theorem consumerAdmitted_eq_false (h : (cu.writeIndex - cu.consumer).toNat < (v - cu.consumer).toNat) :
    consumerAdmitted cu v = false := Bool.eq_false_iff.2 fun hx => by have := consumerAdmitted_iff.1 hx; omega

theorem consumerWriteControl_taken (hs : serving s = true) (hv : consumerAdmitted s.control.cu v = true)
    (hne : v ≠ s.control.cu.consumer) : consumerWriteControl s v =
      { s with control := tryPostControl { s.control with cu := consume s.control.cu v } } := by
  rw [consumerWriteControl, if_pos hs, if_pos hv, if_neg hne]

theorem consumerWriteControl_equal (hs : serving s = true) (he : v = s.control.cu.consumer) :
    consumerWriteControl s v = s := by
  rw [consumerWriteControl, if_pos hs, if_pos (consumerAdmitted_iff.2 (by simp [he])), if_pos he]

theorem consumerWriteControl_refused (hs : serving s = true) (hv : consumerAdmitted s.control.cu v = false) :
    consumerWriteControl s v = indexAlertControl s := by
  rw [consumerWriteControl, if_pos hs, if_neg (Bool.eq_false_iff.1 hv)]

theorem consumerWriteControl_off (h : s.engine = .off) : consumerWriteControl s v = s := by
  rw [consumerWriteControl, if_neg (Bool.eq_false_iff.1 (serving_eq_false_of_off h))]

end

/-- Settles O21: the branches of the two consumer writes. -/
theorem consumerIndexWrites : Obligations.ConsumerIndexWrites := by
  unfold Obligations.ConsumerIndexWrites
  intro s w h
  refine ⟨fun k ha hs hne hv => ?_, fun k ha he => ?_, fun k href => ?_, fun hs hne hv => ?_, fun hs he => ?_,
    fun hs hv => ?_, fun ho => ?_⟩
  · have := consumerWriteTenant_taken (s := { s with tport := some .ok }) hs ha (consumerAdmitted_iff.2 hv) hne
    rw [consume_eq] at this
    exact answered h this
  · exact answered h (consumerWriteTenant_equal (s := { s with tport := some .ok }) ha he)
  · exact answered h ((consumerWriteTenant_refused (s := { s with tport := some .ok })
      (href.imp_right consumerAdmitted_eq_false)).trans (indexAlertTenant_eq _ k))
  · have := consumerWriteControl_taken (s := { s with tport := some .ok }) hs (consumerAdmitted_iff.2 hv) hne
    rw [consume_eq] at this
    exact answered h this
  · exact answered h (consumerWriteControl_equal (s := { s with tport := some .ok }) hs he)
  · exact answered h ((consumerWriteControl_refused (s := { s with tport := some .ok }) hs
      (consumerAdmitted_eq_false hv)).trans (indexAlertControl_eq _))
  · exact answered h (consumerWriteControl_off (s := { s with tport := some .ok }) ho)

/-- Settles O22: every completion unit by `clearAlert`. -/
theorem alertWordWriteClears : Obligations.AlertWordWriteClears := by
  unfold Obligations.AlertWordWriteClears
  intro s w h
  refine ⟨_, congrArg Host.Outcome.next (tportWrite_taken h), ?_, fun k => ?_⟩
  · simp only [clearAlert_eq]
    rfl
  · simp only [getTenant_with_control, getTenant_mapTenants, getTenant_with_tport, clearAlert_eq]
    rfl

end Sys2Proof.Machine
end

section
set_option Elab.async false
/-!
# The shared outcomes of the statements, as the model's operations make them
-/

namespace Sys2Proof.Machine

section
variable {s : State} {k : TenantId} {t : Tenant} {r : Record} {q : Index}

/-! ## Tenants that take a record (R5 to R7, R59, R136) -/

theorem refuseRecord_eq (k : TenantId) (t : Tenant) (reason : Reason) :
    refuseRecord k t reason = refusedTenant k t reason := by
  simp only [refuseRecord, refusedTenant]
  split <;> rfl

theorem refuseRecord_of_waiting (k : TenantId) (t : Tenant) (reason : Reason) :
    refuseRecord k { t with state := .waiting } reason = refusedTenant k t reason := by
  rw [refuseRecord_eq]
  rfl

/-- The lines are those of numbers 0 to 3. -/
theorem lineOfNumber_eq_none_iff {n : Nat} : lineOfNumber n = none ↔ 3 < n := by
  unfold lineOfNumber slotOfNumber
  split <;> simp_all
  omega

theorem lineOfNumber_val {n : Nat} {l : Line} (h : lineOfNumber n = some l) : l.val = n := by
  unfold lineOfNumber slotOfNumber at h
  split at h <;> cases h <;> rfl

/-- The check and begin of a WAIT is the entry into WAITING of section 8.4. -/
theorem waitEntered_startWait (k : TenantId) (t : Tenant) (r : Record) :
    WaitEntered k t r (startWait k { t with state := .waiting } r) := by
  refine ⟨fun hline hlo hhi => ?_, fun hbad => ?_⟩
  · have hne : lineOfNumber (byteAt r 8) ≠ none := fun h => absurd (lineOfNumber_eq_none_iff.1 h) (by omega)
    obtain ⟨l, hl⟩ := Option.ne_none_iff_exists'.1 hne
    refine ⟨l, lineOfNumber_val hl, ?_⟩
    simp only [startWait, hl]
    rw [if_neg (by omega)]
  · rcases hl : lineOfNumber (byteAt r 8) with _ | l
    · simp only [startWait, hl]
      exact refuseRecord_of_waiting k t _
    · have hline : ¬3 < byteAt r 8 := fun h => by rw [lineOfNumber_eq_none_iff.2 h] at hl; cases hl
      simp only [startWait, hl]
      rw [if_pos (by omega)]
      exact refuseRecord_of_waiting k t _

/-- `admitCurrent` is the taking of the current record. -/
theorem takenAs_admitCurrent (k : TenantId) (t : Tenant) : TakenAs k t (admitCurrent k t) := by
  refine ⟨fun q hc => admitCurrent_of_failed hc, fun q r hc => ⟨fun hk => ?_, fun kd hk => ⟨fun hkd => ?_, ?_, ?_⟩⟩⟩
  · rw [admitCurrent_of_unknown hc hk, refuseRecord_eq]
  · rw [admitCurrent_of_control hc hk hkd, refuseRecord_eq]
  · rintro rfl
    rw [admitCurrent_of_wait hc hk]
    exact waitEntered_startWait k t r
  · exact fun hkd hw => admitCurrent_of_tenant hc hk hkd hw

/-! ## Transactions dropped while RESETTING (R19, R162) -/

theorem endResetIfDrained_of_resetting (h : s.engine = .resetting) : endResetIfDrained s = afterDropped s := by
  simp only [endResetIfDrained, afterDropped, h, true_and]
  rfl

/-! ## What selects the record a command acts on -/

theorem currentControl_of_executing {c : CtlRecord} {kd : Kind} (h : Executing s c kd) : currentControl s kd = some c :=
  currentControl_eq_some_iff.2 h

theorem freshGrant_of_firstGrant {kd : Kind} (h : FirstGrant s k r kd) : freshGrant s kd = some (k, r) := by
  obtain ⟨hs, hph, hpl, hg, hst, hpr, hc, hk⟩ := h
  obtain ⟨⟨q, b⟩, hcur, hb⟩ := Option.map_eq_some_iff.1 hc
  cases hb
  exact freshGrant_eq_some_iff.2 ⟨hs, hph, hpl, hg, ⟨q, hcur⟩, hst, hpr, hk⟩

theorem FirstGrant.current {kd : Kind} (h : FirstGrant s k r kd) : ∃ q, (getTenant s k).current = some ⟨q, .record r⟩ := by
  obtain ⟨_, _, _, _, hq, _⟩ := freshGrant_eq_some_iff.1 (freshGrant_of_firstGrant h)
  exact hq

theorem runningPlan_of_underGrant {p : Plan} {ph : Phase} (h : UnderGrant s k p ph) : runningPlan s = some (k, p) :=
  runningPlan_eq_some_iff.2 ⟨h.2.2.1, h.2.2.2.1⟩

theorem runningPlan_of_names {p : Plan} {e : Elem} {ref : ElemRef} {stages : List Stage} (h : Names s k p ref stages e) :
    runningPlan s = some (k, p) :=
  runningPlan_eq_some_iff.2 ⟨h.1, h.2.1⟩

theorem readInFlight_of_outstanding {read : FetchRead} {kd : ReadKind} {d : Bool} (h : ReadOutstanding t read kd d) :
    readInFlight t kd d = some read :=
  readInFlight_eq_some_iff.2 h

theorem postInFlight_of_outstanding {cu : CompletionUnit} {c : Completion} (h : PostOutstanding cu c) :
    postInFlight cu = some c :=
  postInFlight_eq_some_iff.2 h

end

/-! ## The control context (R17, R35, R144, R164) -/

section
variable {s : State}

theorem takeControl_of_not (h : s.engine ≠ .on ∨ s.control.current ≠ none ∨ s.control.entry = none) :
    takeControl s = s := by
  rcases takeControl_cases s with he | ⟨e, _, hon, hcur, hent, _⟩
  · exact he
  · rcases h with h | h | h
    · exact absurd hon h
    · exact absurd hcur h
    · rw [hent] at h; cases h

/-- The control record an entry becomes when it is taken. -/
def begunRecord (e : CtlEntry) : CtlRecord := { seq := e.seq, data := e.data, op := .executing }

/-- The pending completion of the control context after it has taken the entry `e` (R17). -/
def pendingTaken (e : CtlEntry) (old : Option Completion) : Option Completion :=
  match kindOf e.data with
  | none => some (controlCompletion (begunRecord e) .invalid .unknownKind 0 0 0 0)
  | some kd =>
    if isTenantKind kd then some (controlCompletion (begunRecord e) .invalid .tenantOnly 0 0 0 0) else old

theorem pendingTaken_of_unknown {e : CtlEntry} {old : Option Completion} (h : kindOf e.data = none) :
    pendingTaken e old = some (controlCompletion (begunRecord e) .invalid .unknownKind 0 0 0 0) := by
  simp only [pendingTaken, h]

theorem pendingTaken_of_tenant {e : CtlEntry} {old : Option Completion} {kd : Kind} (h : kindOf e.data = some kd)
    (hkd : isTenantKind kd = true) :
    pendingTaken e old = some (controlCompletion (begunRecord e) .invalid .tenantOnly 0 0 0 0) := by
  simp only [pendingTaken, h, hkd, if_true]

theorem pendingTaken_of_control {e : CtlEntry} {old : Option Completion} {kd : Kind} (h : kindOf e.data = some kd)
    (hkd : isTenantKind kd = false) : pendingTaken e old = old := by
  simp only [pendingTaken, h, hkd, Bool.false_eq_true, if_false]

theorem takeControl_of_entry {e : CtlEntry} (hon : s.engine = .on) (hcur : s.control.current = none)
    (hent : s.control.entry = some e) :
    takeControl s = { s with control := { s.control with
      entry := none, current := some (begunRecord e),
      cu := { s.control.cu with pending := pendingTaken e s.control.cu.pending } } } := by
  unfold takeControl
  split
  next _ hent' =>
    obtain rfl : e = _ := Option.some.inj (hent.symm.trans hent')
    rcases hk : kindOf e.data with _ | kd
    · rw [pendingTaken_of_unknown hk]
      rfl
    · cases hkd : isTenantKind kd
      · rw [pendingTaken_of_control hk hkd]
        exact if_neg (by simp [hkd])
      · rw [pendingTaken_of_tenant hk hkd]
        exact if_pos hkd
  next h => exact absurd hent (h e hon hcur)

theorem tryPostControl_of_ready {c : Control} {p : Completion} (hp : c.cu.pending = some p) (hpost : c.cu.post = none)
    (hroom : unconsumed c.cu < ringSlots c.cqCode) (hstop : c.postStop = false) :
    tryPostControl c = { c with cu := issuePost c.cu c.cqBase c.cqCode p } := by
  simp only [tryPostControl, hp]
  exact if_pos ⟨hpost, hroom, hstop⟩

theorem tryPostControl_of_not {c : Control} (h : c.cu.pending = none ∨ c.cu.post ≠ none ∨
    ringSlots c.cqCode ≤ unconsumed c.cu ∨ c.postStop = true) : tryPostControl c = c := by
  rcases tryPostControl_cases c with he | ⟨p, hp, hpost, hroom, hstop, _⟩
  · exact he
  · rcases h with h | h | h | h
    · rw [hp] at h; cases h
    · exact absurd hpost h
    · omega
    · rw [hstop] at h; cases h

/-- The conditions of R35. -/
def ControlReads (s : State) : Prop :=
  s.engine = .on ∧ s.control.producer ≠ s.control.fetchIndex ∧ s.control.inFlight = none ∧ s.control.entry = none ∧
    ∀ c, s.control.current = some c → c.op = .executing

theorem op_eq_executing_iff {c : CtlRecord} : c.op = .executing ↔ (c.op == OpState.waitingTarget) = false := by
  cases c.op <;> decide

theorem tryControlRead_of_reads (h : ControlReads s) :
    tryControlRead s = { s with control := { s.control with
      fetchIndex := s.control.fetchIndex + 1,
      inFlight := some { kind := .normal, seq := s.control.fetchIndex,
                         addr := sqSlotAddr s.control.sqBase s.control.sqCode s.control.fetchIndex,
                         discard := false } } } := by
  obtain ⟨hon, hne, hin, hent, hop⟩ := h
  refine if_pos ⟨hon, hne, hin, hent, ?_⟩
  rcases hc : s.control.current with _ | c
  · rfl
  · exact op_eq_executing_iff.1 (hop c hc)

theorem tryControlRead_of_not (h : ¬ControlReads s) : tryControlRead s = s := by
  refine if_neg fun ⟨hon, hne, hin, hent, hop⟩ => h ⟨hon, hne, hin, hent, fun c hc => ?_⟩
  rw [hc] at hop
  exact op_eq_executing_iff.2 hop

end

end Sys2Proof.Machine
end

section
set_option Elab.async false
/-!
# The engine word, resets and NOTIFY lines (sections 1.9, 9.6 and 10.1)
-/

namespace Sys2Proof.Machine

/-! ## ENABLE (R159 to R161) -/

section
variable {s : State}

/-- What is in flight after the completion unit of context 0 was let post, the post stop clear (R144). -/
theorem tryPostControl_eq {c : Control} {post : Option Post} (hstop : c.postStop = false)
    (hissued : ∀ d, c.cu.pending = some d → c.cu.post = none → unconsumed c.cu < ringSlots c.cqCode → post = some
      { addr := cqSlotAddr c.cqBase c.cqCode c.cu.writeIndex, data := encodeCompletion c.cu.lap d, discard := false })
    (hnone : c.cu.pending = none ∨ c.cu.post ≠ none ∨ ¬unconsumed c.cu < ringSlots c.cqCode → post = c.cu.post) :
    tryPostControl c = { c with cu := { c.cu with post := post } } := by
  by_cases hw : c.cu.pending = none ∨ c.cu.post ≠ none ∨ ¬unconsumed c.cu < ringSlots c.cqCode
  · rw [tryPostControl_of_not (hw.imp_right fun h => h.imp_right fun h => .inl (Nat.not_lt.1 h)), hnone hw]
  · obtain ⟨hp, hpost, hroom⟩ : c.cu.pending ≠ none ∧ c.cu.post = none ∧ unconsumed c.cu < ringSlots c.cqCode := by
      simpa [not_or] using hw
    obtain ⟨d, hd⟩ := Option.ne_none_iff_exists'.1 hp
    rw [tryPostControl_of_ready hd hpost hroom hstop, hissued d hd hpost hroom]
    rfl

/-- Every return from CTL_STOPPED (R161): the entry taken, the pending completion written again, the read issued. -/
theorem enableFromStopped_eq {entry : Option CtlEntry} {current : Option CtlRecord} {pending : Option Completion}
    {post : Option Post}
    (hkept : s.control.current ≠ none ∨ s.control.entry = none →
      entry = s.control.entry ∧ current = s.control.current ∧ pending = s.control.cu.pending)
    (htaken : ∀ e, s.control.current = none → s.control.entry = some e →
      entry = none ∧ current = some (begunRecord e) ∧ pending = pendingTaken e s.control.cu.pending)
    (hissued : ∀ c, pending = some c → s.control.cu.post = none →
      unconsumed s.control.cu < ringSlots s.control.cqCode → post = some
        { addr := cqSlotAddr s.control.cqBase s.control.cqCode s.control.cu.writeIndex,
          data := encodeCompletion s.control.cu.lap c, discard := false })
    (hnone : pending = none ∨ s.control.cu.post ≠ none ∨ ¬unconsumed s.control.cu < ringSlots s.control.cqCode →
      post = s.control.cu.post) :
    enableFromStopped s = tryControlRead { s with engine := .on, control := { s.control with
      postStop := false, entry := entry, current := current,
      cu := { s.control.cu with pending := pending, post := post } } } := by
  have htake : takeControl { s with engine := .on, control := { s.control with postStop := false } } =
      { s with engine := .on, control := { s.control with
        postStop := false, entry := entry, current := current, cu := { s.control.cu with pending := pending } } } := by
    by_cases hc : s.control.current ≠ none ∨ s.control.entry = none
    · obtain ⟨rfl, rfl, rfl⟩ := hkept hc
      exact takeControl_of_not (.inr hc)
    · obtain ⟨hcur, hent⟩ := not_or.1 hc
      obtain ⟨e, he⟩ := Option.ne_none_iff_exists'.1 hent
      obtain ⟨rfl, rfl, rfl⟩ := htaken e (not_not.1 hcur) he
      exact takeControl_of_entry rfl (not_not.1 hcur) he
  simp only [enableFromStopped, htake]
  exact congrArg (fun c => tryControlRead { s with engine := .on, control := c }) (tryPostControl_eq (by rfl) hissued hnone)

end

/-- Settles O23: the branches of ENABLE by the engine state, the return from CTL_STOPPED by its three parts. -/
theorem enableAndSizeCodes : Obligations.EnableAndSizeCodes := by
  unfold Obligations.EnableAndSizeCodes
  rintro s w sq cq h rfl rfl
  have enabled : ∀ {t : State},
      (match s.engine with
        | .off => enableFromOff (storeSizeCodes { s with tport := some .ok } w)
        | .ctlStopped => enableFromStopped (storeSizeCodes { s with tport := some .ok } w)
        | .on | .resetting => storeSizeCodes { s with tport := some .ok } w) = t →
      exec (.enable w) s = .next t := fun he => answered h he
  refine ⟨answered h rfl, fun ho => enabled (by rw [ho]; rfl), fun ho => enabled (by rw [ho]; rfl), ?_⟩
  intro hstop entry current pending post hkept htaken hpost
  have heq := enableFromStopped_eq (s := storeSizeCodes { s with tport := some .ok } w) hkept
    (fun e hcur hent => ?_) hpost.1 hpost.2
  · refine ⟨fun hno => enabled ?_, fun hyes => enabled ?_⟩
    · rw [hstop]
      refine heq.trans ((tryControlRead_of_not fun hr => hno ?_))
      exact hr.2
    · rw [hstop]
      exact heq.trans (tryControlRead_of_reads ⟨rfl, hyes⟩)
  · obtain ⟨hentry, hcurrent, hunknown, hknown⟩ := htaken e hcur hent
    refine ⟨hentry, hcurrent, ?_⟩
    rcases hk : kindOf e.data with _ | kd
    · rw [pendingTaken_of_unknown hk]
      exact hunknown hk
    · cases hkd : isTenantKind kd
      · rw [pendingTaken_of_control hk hkd]
        exact (hknown kd hk).2 hkd
      · rw [pendingTaken_of_tenant hk hkd]
        exact (hknown kd hk).1 hkd

/-! ## SOFT_RESET (R162) and the answers while RESETTING (R19, R98, R149) -/

section
variable {s : State} {k : TenantId} {p : Plan} {r : ElemRef} {e : Elem}

theorem mportOutstanding_mapTenants {f : TenantId → Tenant → Tenant}
    (h : ∀ k t, tenantOutstanding (f k t) = tenantOutstanding t) :
    mportOutstanding (mapTenants s f) = mportOutstanding s := by
  simp only [mportOutstanding, getTenant_mapTenants, h, mapTenants_tu, mapTenants_control]

theorem endResetIfDrained_of_drained (he : s.engine = .resetting) (h0 : mportOutstanding s = 0) :
    endResetIfDrained s = resetBlocks s := if_pos ⟨he, h0⟩

theorem resetBlocks_of_released (hr : s.rstAsserted = false) : resetBlocks s =
    { State.reset with
      pending := s.pending, tport := s.tport, sqCode := s.sqCode, cqCode := s.cqCode, base := s.base,
      draws := s.draws } := by
  simp only [resetBlocks, hr]
  rfl

theorem mportOutstanding_beginSoftReset : mportOutstanding (beginSoftReset s) = mportOutstanding s :=
  mportOutstanding_mapTenants (s := { s with engine := .resetting }) fun _ _ => rfl

theorem execElementReadAck_eq {v : Word} (h : Names s k p r [.readIssued] e) : execElementReadAck r v s =
    .next (if s.engine = .resetting then dropElement s r else releaseHeld k p (readAcknowledged s k p r e v)) := by
  simp only [execElementReadAck, runningPlan_of_names h, h.2.2]

theorem execElementWriteAck_eq {ord : Nat} (h : Names s k p (.element ord) [.writeIssued] e) :
    execElementWriteAck ord s = .next (if s.engine = .resetting then dropElement s (.element ord)
      else releaseHeld k p (writeAcknowledged s k p ord)) := by
  simp only [execElementWriteAck, runningPlan_of_names h, h.2.2]

theorem execElementErrorResponse_eq (h : Names s k p r [.readIssued, .writeIssued] e) :
    execElementErrorResponse r s = .next (if s.engine = .resetting then dropElement s r
      else releaseHeld k p { s with
        tu := (recordFault { s.tu with outstanding := withoutElem s.tu.outstanding r } (errorFault p e)) }) := by
  simp only [execElementErrorResponse, runningPlan_of_names h, h.2.2]

end

section
variable {s : State} {k : TenantId}

theorem execDiscardedReadAnswer_of_marked {r : FetchRead} {ok : Bool} (h : (getTenant s k).chan.inFlight = some r)
    (hd : r.discard = true) : execDiscardedReadAnswer k ok s = .next (if s.engine = .resetting then dropTenantRead s k
      else setTenant s k (endDiscardedRead (getTenant s k))) := by
  simp only [execDiscardedReadAnswer, h, hd, if_true]

theorem execDiscardedPostAnswer_of_marked {p : Post} {ok : Bool} (h : (getTenant s k).cu.post = some p)
    (hd : p.discard = true) : execDiscardedPostAnswer k ok s = .next (dropTenantPost s k) := by
  simp only [execDiscardedPostAnswer, h, hd, if_true]

theorem execDiscardedPostAnswer_of_unmarked {p : Post} {ok : Bool} (h : (getTenant s k).cu.post = some p)
    (hd : p.discard = false) : execDiscardedPostAnswer k ok s = .next s := by
  simp only [execDiscardedPostAnswer, h, hd, Bool.false_eq_true, if_false]

theorem execFetchReadAck_of_outstanding {r : FetchRead} {d : Record}
    (h : ReadOutstanding (getTenant s k) r .normal false) :
    execFetchReadAck k d s = .next (if s.engine = .resetting then dropTenantRead s k
      else setTenant s k (joinQueue k (getTenant s k) ⟨r.seq, .record d⟩)) := by
  simp only [execFetchReadAck, readInFlight_of_outstanding h]

theorem execFetchReadError_of_outstanding {r : FetchRead} (h : ReadOutstanding (getTenant s k) r .normal false) :
    execFetchReadError k s = .next (if s.engine = .resetting then dropTenantRead s k
      else setTenant s k (joinQueue k { getTenant s k with chan := { (getTenant s k).chan with stop := true } }
        ⟨r.seq, .failed⟩)) := by
  simp only [execFetchReadError, readInFlight_of_outstanding h]

theorem execRefetchAck_of_outstanding {r : FetchRead} {d : Record}
    (h : ReadOutstanding (getTenant s k) r .refetch false) :
    execRefetchAck k d s = .next (if s.engine = .resetting then dropTenantRead s k
      else setTenant s k (refetched k (getTenant s k) r.seq d)) := by
  simp only [execRefetchAck, readInFlight_of_outstanding h]

theorem execRefetchError_of_outstanding {r : FetchRead} (h : ReadOutstanding (getTenant s k) r .refetch false) :
    execRefetchError k s = .next (if s.engine = .resetting then dropTenantRead s k
      else setTenant s k (refetchFailed k (getTenant s k) r.seq)) := by
  simp only [execRefetchError, readInFlight_of_outstanding h]

theorem execControlFetchAck_of_read {r : FetchRead} {d : Record} (h : s.control.inFlight = some r) :
    execControlFetchAck d s = .next (if s.engine = .resetting then dropControlRead s
      else takeControl { s with control := { s.control with inFlight := none, entry := some ⟨r.seq, d⟩ } }) := by
  simp only [execControlFetchAck, h]

theorem execControlFetchError_of_read {r : FetchRead} (h : s.control.inFlight = some r) :
    execControlFetchError s = .next (if s.engine = .resetting then dropControlRead s
      else { s with
        engine := if s.engine = .on then .ctlStopped else s.engine,
        control := { s.control with inFlight := none, fetchIndex := r.seq } }) := by
  simp only [execControlFetchError, h]

theorem tenantPostAcked_of_outstanding {c : Completion} (h : PostOutstanding (getTenant s k).cu c) :
    tenantPostAcked s k = if s.engine = .resetting then dropTenantPost s k
      else setTenant s k (ackTenantPost k (getTenant s k) c) := by
  simp only [tenantPostAcked, postInFlight_of_outstanding h]

theorem execPostAck_control_of_outstanding {c : Completion} (h : PostOutstanding s.control.cu c) :
    execPostAck .control s = .next (if s.engine = .resetting then dropControlPost s
      else controlBoundary { s with control := { s.control with
        cu := acknowledgePost s.control.cu s.control.cqCode c } }) := by
  simp only [execPostAck, postInFlight_of_outstanding h]

theorem execPostError_tenant_of_outstanding {c : Completion} (h : PostOutstanding (getTenant s k).cu c) :
    execPostError (.tenant k) s = .next (if s.engine = .resetting then dropTenantPost s k
      else setTenant s k (failTenantPost (getTenant s k))) := by
  simp only [execPostError, postInFlight_of_outstanding h]

theorem execPostError_control_of_outstanding {c : Completion} (h : PostOutstanding s.control.cu c) :
    execPostError .control s = .next (if s.engine = .resetting then dropControlPost s else failControlPost s) := by
  simp only [execPostError, postInFlight_of_outstanding h]

theorem postOutstanding_of_unmarked {cu : CompletionUnit} {p : Post} (h : cu.post = some p) (hd : p.discard = false)
    (hp : cu.pending ≠ none) : ∃ c, PostOutstanding cu c := by
  obtain ⟨c, hc⟩ := Option.ne_none_iff_exists'.1 hp
  exact ⟨c, hc, by simp [livePost, h, hd]⟩

theorem endQuery_of_resetting {st : Status} {rs : Reason} (hq : s.control.query ≠ none) (he : s.engine = .resetting) :
    endQuery s st rs = endResetIfDrained { s with control := { s.control with query := none } } := by
  obtain ⟨q, hq'⟩ := Option.ne_none_iff_exists'.1 hq
  simp only [endQuery, hq', he, if_true]

end

/-- Settles O24: the write by what the M-port holds, and each answer while RESETTING by the transaction it drops. -/
theorem softResetWriteAndEnd : Obligations.SoftResetWriteAndEnd := by
  unfold Obligations.SoftResetWriteAndEnd
  refine ⟨?_, fun s he => ?_⟩
  · rintro s w sq cq rfl rfl
    have hout : mportOutstanding (beginSoftReset (storeSizeCodes { s with tport := some .ok } w)) =
        mportOutstanding s := mportOutstanding_beginSoftReset
    refine ⟨fun h hne => ⟨_, answered h (if_neg fun hc => hne (hout.symm.trans hc.2)), rfl, fun k => ?_⟩,
      fun h h0 => answered h ?_⟩
    · exact getTenant_mapTenants _ _ _
    · have hend := endResetIfDrained_of_drained rfl (hout.trans h0)
      exact hend.trans (resetBlocks_of_released h.1)
  · have dropped : ∀ {a b : State} {c : Prop} [Decidable c], c → a.engine = .resetting →
        Host.Outcome.next (φ := Fault) (ρ := Refusal) (if c then endResetIfDrained a else b) =
          .next (afterDropped a) := fun hc ha =>
      congrArg _ ((if_pos hc).trans (endResetIfDrained_of_resetting ha))
    refine ⟨fun h1 => congrArg _ (if_pos ⟨he, h1⟩), fun h1 => congrArg _ (if_neg fun hc => by omega),
      fun k r d ok hr => ⟨fun hd => ?_, fun hd hk => ⟨?_, ?_⟩, fun hd hk => ⟨?_, ?_⟩⟩,
      fun k p ok hp => ⟨fun hd => ?_, fun hd hc => ?_⟩, fun r d hr => ⟨?_, ?_⟩, fun c hc => ⟨?_, ?_⟩,
      fun hq => ⟨?_, ?_⟩, fun k p r e v => ⟨fun hn => ?_, ?_, fun hn => ?_⟩⟩
    · exact (execDiscardedReadAnswer_of_marked (ok := ok) hr hd).trans (dropped he he)
    · exact (execFetchReadAck_of_outstanding ⟨hr, hk, hd⟩).trans (dropped he he)
    · exact (execFetchReadError_of_outstanding ⟨hr, hk, hd⟩).trans (dropped he he)
    · exact (execRefetchAck_of_outstanding ⟨hr, hk, hd⟩).trans (dropped he he)
    · exact (execRefetchError_of_outstanding ⟨hr, hk, hd⟩).trans (dropped he he)
    · exact (execDiscardedPostAnswer_of_marked (ok := ok) hp hd).trans (congrArg _ (endResetIfDrained_of_resetting he))
    · obtain ⟨c, hc⟩ := postOutstanding_of_unmarked hp hd hc
      exact ⟨(congrArg _ (tenantPostAcked_of_outstanding hc)).trans (dropped he he),
        (execPostError_tenant_of_outstanding hc).trans (dropped he he)⟩
    · exact (execControlFetchAck_of_read hr).trans (dropped he he)
    · exact (execControlFetchError_of_read hr).trans (dropped he he)
    · exact (execPostAck_control_of_outstanding hc).trans (dropped he he)
    · exact (execPostError_control_of_outstanding hc).trans (dropped he he)
    · exact congrArg _ ((endQuery_of_resetting hq he).trans (endResetIfDrained_of_resetting he))
    · exact congrArg _ ((endQuery_of_resetting hq he).trans (endResetIfDrained_of_resetting he))
    · exact (execElementReadAck_eq hn).trans (dropped he he)
    · rintro ord rfl hn
      exact (execElementWriteAck_eq hn).trans (dropped he he)
    · exact (execElementErrorResponse_eq hn).trans (dropped he he)

/-! ## RST_N and the other accesses (R18, R181) -/

theorem exec_of_isRegisterWrite {i : Instr} (h : isRegisterWrite i = true) (s : State) :
    ∃ act, exec i s = .next (tportWrite s act) := by
  cases i <;> cases h
  all_goals exact ⟨_, rfl⟩

/-- Settles O25. -/
theorem powerOnResetAndOtherAccesses : Obligations.PowerOnResetAndOtherAccesses := by
  unfold Obligations.PowerOnResetAndOtherAccesses
  refine ⟨fun s => ⟨rfl, rfl⟩, fun s o w h => answered h rfl, fun s b o n h => congrArg _ (if_pos ?_),
    fun i s hi => ?_⟩
  · simp only [accessAligned, Bool.or_eq_true, Bool.not_eq_true', Bool.and_eq_false_iff, beq_eq_false_iff_ne]
    exact h
  · obtain ⟨act, hact⟩ := exec_of_isRegisterWrite hi s
    exact ⟨fun hr he => hact.trans (congrArg _ (tportWrite_resetting hr he)),
      fun hr => hact.trans (congrArg _ (tportWrite_underReset hr))⟩

/-! ## NOTIFY lines (R153) -/

section
variable {s : State}

theorem mem_tenantIds : ∀ k : TenantId, k ∈ tenantIds := by decide

theorem anyAlert_eq_false_iff :
    anyAlert s = false ↔ s.control.cu.alert = none ∧ ∀ k, (getTenant s k).cu.alert = none := by
  simp [anyAlert, mem_tenantIds]

theorem contextBits_eq_zero {f : Option Alert → Bool} (hf : f none = false) (hc : s.control.cu.alert = none)
    (hk : ∀ k, (getTenant s k).cu.alert = none) : contextBits f s = 0 := by
  simp only [contextBits, hc, hk, hf]
  rfl

theorem alertWord_eq_zero_iff :
    alertWord s = 0 ↔ s.control.cu.alert = none ∧ ∀ k, (getTenant s k).cu.alert = none := by
  obtain ⟨h0, _, hk, _⟩ := alertWord_bits s
  refine ⟨fun h => ?_, fun ⟨hc, hk⟩ => ?_⟩
  · rw [h] at h0 hk
    refine ⟨?_, fun k => ?_⟩
    · simpa [alertOf] using h0.symm
    · simpa [alertOf] using (hk k).1.symm
  · rw [alertWord, contextBits_eq_zero rfl hc hk, contextBits_eq_zero rfl hc hk]
    rfl

theorem anyAlert_iff : anyAlert s = true ↔ alertWord s ≠ 0 := by
  rw [Ne, alertWord_eq_zero_iff, ← anyAlert_eq_false_iff, Bool.not_eq_false]

theorem serving_iff_not_off (h : s.engine ≠ .resetting) : serving s = true ↔ s.engine ≠ .off := by
  rw [serving_iff]
  cases he : s.engine <;> simp_all

theorem notifyLine_of_hostTaken (h : hostTaken s) (c : Ctx) : notifyLine s c = match c with
    | .control => anyAlert s || (serving s && (decide (controlThreshold ≤ unconsumed s.control.cu) || s.control.cu.urgent))
    | .tenant k => serving s && attached (getTenant s k) &&
        (decide ((getTenant s k).threshold ≤ unconsumed (getTenant s k).cu) || (getTenant s k).holdoffExpired ||
          (getTenant s k).cu.urgent) :=
  if_neg (by simp [h.1, h.2])

end

/-- Settles O26. -/
theorem notifyLines : Obligations.NotifyLines := by
  unfold Obligations.NotifyLines
  refine ⟨fun s c h => if_pos (by simpa using h), fun s h => ⟨?_, fun k => ?_⟩, fun s => alertWord_eq_zero_iff⟩
  · rw [notifyLine_of_hostTaken h]
    simp only [Bool.or_eq_true, Bool.and_eq_true, anyAlert_iff, serving_iff_not_off h.2, decide_eq_true_eq]
    rfl
  · rw [notifyLine_of_hostTaken h]
    simp only [Bool.or_eq_true, Bool.and_eq_true, serving_iff_not_off h.2, decide_eq_true_eq, attached_iff, and_assoc,
      or_assoc]
    rfl

end Sys2Proof.Machine
end

section
set_option Elab.async false
/-!
# The timer unit: edges, timebase steps, WAITs (sections 8.1 to 8.6)
-/

namespace Sys2Proof.Machine

section
variable {s : State} {k : TenantId} {l : Line}

theorem getLine_setLine (f : Lines) (l m : Line) : getLine (setLine f l true) m = (m == l || getLine f m) := by
  fin_cases l <;> fin_cases m <;> rfl

theorem timebaseDrives_of_hostTaken (h : hostTaken s) : timebaseDrives s = true := by simp [timebaseDrives, h.1, h.2]

theorem timebaseDrives_eq_false_iff : timebaseDrives s = false ↔ s.rstAsserted = true ∨ s.engine = .resetting := by
  rw [timebaseDrives]
  cases s.rstAsserted <;> simp

/-- A timebase step steps every tenant (R133, R134, R137 to R139, R154). -/
theorem stepped_timebaseStep (h : ∀ k, WaitRow (getTenant s k)) (expiryFirst : TenantId → Bool) :
    Stepped s (timebaseStep s expiryFirst) fun k => !expiryFirst k :=
  ⟨rfl, fun k => (getTenant_timebaseStep s expiryFirst k).trans (timebaseTenant_eq (h k) _)⟩

theorem waitExpiresNext_iff {t : Tenant} (h : WaitRow t) : waitExpiresNext t = true ↔ t.waitTimer = some 1 := by
  simp only [waitExpiresNext, Bool.and_eq_true, bne_iff_ne, beq_iff_eq, and_iff_right_iff_imp]
  exact fun h1 => h.2.2.1 (by simp [h1])

theorem waitExpiresNext_eq_false {t : Tenant} (h : t.waitTimer ≠ some 1) : waitExpiresNext t = false := by
  simp [waitExpiresNext, h]

end

/-- Settles O27. -/
theorem syncEdgeAndTimebaseStep : Obligations.SyncEdgeAndTimebaseStep := by
  unfold Obligations.SyncEdgeAndTimebaseStep
  refine ⟨fun s l h => ⟨{ s with latches := setLine s.latches l true }, congrArg Host.Outcome.next (if_neg ?_), rfl,
      fun m => getLine_setLine s.latches l m⟩,
    fun s h hrows => ⟨_, _, congrArg Host.Outcome.next (if_pos (timebaseDrives_of_hostTaken h)), stepped_timebaseStep hrows _⟩,
    fun s l h => congrArg Host.Outcome.next (if_pos (by simpa using h)), fun s hr => congrArg Host.Outcome.next ?_, fun s hr he => congrArg Host.Outcome.next ?_⟩
  · simp [h.1, h.2]
  · exact (if_neg (by simp [timebaseDrives_eq_false_iff.2 (.inl hr)])).trans (if_pos hr)
  · exact (if_neg (by simp [timebaseDrives_eq_false_iff.2 (.inr he)])).trans (if_neg (by simp [hr]))

/-- Settles O28: a tenant that counts on the line takes its arrival first. -/
theorem arrivalCounts : Obligations.ArrivalCounts := by
  unfold Obligations.ArrivalCounts
  refine ⟨fun s l h hl hrows => ⟨_, _, congrArg Host.Outcome.next (if_pos ?_), stepped_timebaseStep hrows _, fun k n b hw => ?_⟩,
    fun s l h => congrArg Host.Outcome.next (if_neg ?_)⟩
  · simp [timebaseDrives_of_hostTaken h, hl]
  · simp [countsOn, hw]
  · rcases h with h | h | h
    · simp [timebaseDrives_eq_false_iff.2 (.inl h)]
    · simp [timebaseDrives_eq_false_iff.2 (.inr h)]
    · simp [h]

/-- Settles O29: the tenant whose wait timer ends takes its expiry first. -/
theorem timersExpire : Obligations.TimersExpire := by
  unfold Obligations.TimersExpire
  refine ⟨fun s k h hrows h1 => ⟨_, _, congrArg Host.Outcome.next (if_pos ?_), stepped_timebaseStep hrows _, ?_⟩,
    fun s k h hrows h1 => ⟨_, _, congrArg Host.Outcome.next (if_pos ?_), stepped_timebaseStep hrows _⟩,
    fun s k => ⟨fun h => congrArg Host.Outcome.next (if_neg ?_), fun h => congrArg Host.Outcome.next (if_neg ?_)⟩⟩
  · simp [timebaseDrives_of_hostTaken h, (waitExpiresNext_iff (hrows k)).2 h1]
  · simp
  · simp [timebaseDrives_of_hostTaken h, h1]
  · rcases h with h | h | h
    · simp [timebaseDrives_eq_false_iff.2 (.inl h)]
    · simp [timebaseDrives_eq_false_iff.2 (.inr h)]
    · simp [waitExpiresNext_eq_false h]
  · rcases h with h | h | h
    · simp [timebaseDrives_eq_false_iff.2 (.inl h)]
    · simp [timebaseDrives_eq_false_iff.2 (.inr h)]
    · simp [h]

/-! ## The record boundary and the recovery step after a post (R8, R123) -/

section
variable {s : State} {k : TenantId} {t : Tenant} {c : Completion}

theorem unconsumed_eq_zero_iff {cu : CompletionUnit} : unconsumed cu = 0 ↔ cu.writeIndex = cu.consumer := by
  rw [unconsumed, ← BitVec.toNat_zero (w := 16), ← BitVec.toNat_eq, BitVec.sub_eq_iff_eq_add, BitVec.zero_add]

theorem ackedTenant_eq (t : Tenant) (c : Completion) : ackedTenant t c = postedTenant t c := by
  simp only [ackedTenant, unconsumed_eq_zero_iff]
  rfl

theorem recordBoundary_of_cons {e : Entry} {rest : List Entry} (h : t.chan.queue = e :: rest) :
    recordBoundary k t = admitCurrent k { t with
      current := some e, ackReport := none, cu := { t.cu with pending := none },
      chan := { t.chan with queue := rest } } := by
  simp only [recordBoundary, h, takeHead]

theorem recordBoundary_of_nil (h : t.chan.queue = []) :
    recordBoundary k t = { t with
      current := none, ackReport := none, cu := { t.cu with pending := none },
      state := if t.drainRequested = true ∧ t.chan.inFlight = none then .paused else .idle } := by
  have hd : (t.drainRequested && t.chan.inFlight.isNone) = true ↔ t.drainRequested = true ∧ t.chan.inFlight = none := by
    simp
  simp only [recordBoundary, h, hd]
  split_ifs <;> rfl

theorem ackTenantPost_of_posting (hs : t.state = .posting) :
    ackTenantPost k t c = recordBoundary k (postedTenant t c) := by
  have hs' : (postedTenant t c).state = .posting := hs
  rw [ackTenantPost_eq, ackedTenant_eq, postedReport, hs']

theorem ackTenantPost_of_halted (hs : t.state = .halted) :
    ackTenantPost k t c = recoverAfterPost k (postedTenant t c) := by
  have hs' : (postedTenant t c).state = .halted := hs
  rw [ackTenantPost_eq, ackedTenant_eq, postedReport, hs']

theorem recoverAfterPost_retry (h : t.recovery = some .retryAfterPost) :
    recoverAfterPost k t = retryHalted k { t with recovery := none } := by simp only [recoverAfterPost, h]

theorem recoverAfterPost_skip (h : t.recovery = some .skipAfterPost) :
    recoverAfterPost k t = skipHalted k { t with recovery := none } := by simp only [recoverAfterPost, h]

theorem recoverAfterPost_of_not (h1 : t.recovery ≠ some .retryAfterPost) (h2 : t.recovery ≠ some .skipAfterPost) :
    recoverAfterPost k t = t := by
  unfold recoverAfterPost
  split
  · exact absurd ‹_› h1
  · exact absurd ‹_› h2
  · rfl
  · rfl

theorem retryHalted_of_timeout {q : Index} {r : Record} (h : t.haltReason = some .timeout)
    (hc : t.current = some ⟨q, .record r⟩) :
    retryHalted k t = startWait k { t with haltReason := none, state := .waiting } r := by
  simp only [retryHalted, h]
  exact restartWait_of_record hc

theorem tenantPostAcked_of_serving (hs : serving s = true) (hc : PostOutstanding (getTenant s k).cu c) :
    tenantPostAcked s k = setTenant s k (ackTenantPost k (getTenant s k) c) :=
  (tenantPostAcked_of_outstanding hc).trans (if_neg (engine_ne_resetting_of_serving hs))

/-- A WAIT command that the post's acknowledgement is (R136). -/
theorem execWait_of_postBringsWait (hs : serving s = true) (hb : postBringsWait (getTenant s k) = true) :
    execWait k s = .next (tenantPostAcked s k) := by
  simp only [execWait, hs, hb, if_true]

theorem execWait_of_not_postBringsWait (hs : serving s = true) (hb : postBringsWait (getTenant s k) = false) :
    execWait k s = .next (setTenant s k (beginWait k (getTenant s k))) := by
  simp only [execWait, hs, hb, if_true, Bool.false_eq_true, if_false]

theorem execWait_of_not_serving (hs : serving s = false) : execWait k s = .next s := by
  simp only [execWait, hs, Bool.false_eq_true, if_false]

theorem postBringsWait_of_waiting (h : t.state = .waiting) : postBringsWait t = false := by
  simp only [postBringsWait, h]

theorem with_state_self {st : TState} (h : t.state = st) : { t with state := st } = t := by
  subst h
  rfl

theorem beginWait_of_stopped {q : Index} {r : Record} (hs : t.state = .waiting) (hw : t.wait = .stopped)
    (hc : t.current = some ⟨q, .record r⟩) : beginWait k t = startWait k { t with state := .waiting } r := by
  rw [with_state_self hs]
  simp only [beginWait, hs, hw, hc]

theorem beginWait_of_counting (hw : t.wait ≠ .stopped) : beginWait k t = t := by
  unfold beginWait
  split
  · exact absurd ‹_› hw
  · rfl

end

/-- Settles O30: by what makes the WAIT current, and the begin of the WAIT is `waitEntered_startWait`. -/
theorem waitBeginsOrIsRefused : Obligations.WaitBeginsOrIsRefused := by
  unfold Obligations.WaitBeginsOrIsRefused
  refine ⟨fun s k c q r rest hs hc hst hq hk => ?_, fun s k c q r hs hc hst hrec hhalt hcur => ?_,
    fun s k q r hs hst hw hcur => ?_, fun s k h => ?_⟩
  · have hbrings : postBringsWait (getTenant s k) = true := by simp [postBringsWait, hst, hq, hk]
    have hacked : ackTenantPost k (getTenant s k) c = admitCurrent k { postedTenant (getTenant s k) c with
        current := some ⟨q, .record r⟩, ackReport := none, chan := { (getTenant s k).chan with queue := rest } } := by
      rw [ackTenantPost_of_posting hst, recordBoundary_of_cons (t := postedTenant (getTenant s k) c) hq]
      rfl
    refine ⟨_, (execWait_of_postBringsWait hs hbrings).trans (congrArg Host.Outcome.next (tenantPostAcked_of_serving hs hc)),
      congrArg Host.Outcome.next (tenantPostAcked_of_serving hs hc), ?_⟩
    rw [hacked]
    exact ((takenAs_admitCurrent k _).2 q r rfl).2 .wait hk |>.2.1 rfl
  · have hbrings : postBringsWait (getTenant s k) = true := by simp [postBringsWait, hst, hrec, hhalt]
    refine ⟨_, (execWait_of_postBringsWait hs hbrings).trans (congrArg Host.Outcome.next (tenantPostAcked_of_serving hs hc)),
      congrArg Host.Outcome.next (tenantPostAcked_of_serving hs hc), ?_⟩
    rw [ackTenantPost_of_halted hst, recoverAfterPost_retry (t := postedTenant (getTenant s k) c) hrec,
      retryHalted_of_timeout (t := { postedTenant (getTenant s k) c with recovery := none }) hhalt hcur]
    exact waitEntered_startWait k { postedTenant (getTenant s k) c with recovery := none, haltReason := none } r
  · refine ⟨_, execWait_of_not_postBringsWait hs (postBringsWait_of_waiting hst), ?_⟩
    rw [beginWait_of_stopped hst hw hcur]
    exact waitEntered_startWait k _ r
  · by_cases hs : serving s = true
    · obtain ⟨hw, hst⟩ := h.resolve_left (by simp [hs])
      refine (execWait_of_not_postBringsWait hs (postBringsWait_of_waiting hst)).trans (congrArg Host.Outcome.next ?_)
      rw [beginWait_of_counting hw, setTenant_getTenant]
    · exact execWait_of_not_serving (Bool.eq_false_iff.2 hs)

end Sys2Proof.Machine
end

section
set_option Elab.async false
/-!
# The fetch unit and the control channel (sections 2.2 to 2.8)
-/

namespace Sys2Proof.Machine

section
variable {s : State} {k : TenantId} {t : Tenant} {e : Entry}

/-- The conditions of R27, the engine's aside. -/
theorem fetchReady_iff : fetchReady t = true ↔ attached t = true ∧ t.producer ≠ t.chan.fetchIndex ∧
    t.chan.inFlight = none ∧ t.chan.queue.length < 4 ∧ t.chan.stop = false ∧ t.drainRequested = false ∧
    t.chan.refetchWaiting = false := by
  simp [fetchReady, and_assoc]

end

/-- Settles O31. -/
theorem fetchReadIssued : Obligations.FetchReadIssued := by
  unfold Obligations.FetchReadIssued
  refine fun s k => ⟨fun hs ha hp hi hq hstop hd hw =>
      congrArg Host.Outcome.next (if_pos ⟨hs, fetchReady_iff.2 ⟨ha, hp, hi, hq, hstop, hd, hw⟩⟩),
    fun h => congrArg Host.Outcome.next (if_neg ?_)⟩
  rintro ⟨hs, hready⟩
  obtain ⟨ha, hp, hi, hq, hstop, hd, hw⟩ := fetchReady_iff.1 hready
  rcases h with h | h | h | h | h | h | h | h
  · rw [hs] at h; cases h
  · rw [ha] at h; cases h
  · exact hp h
  · exact h hi
  · omega
  · rw [hstop] at h; cases h
  · rw [hd] at h; cases h
  · rw [hw] at h; cases h

section
variable {s : State} {k : TenantId} {t : Tenant} {e : Entry}

theorem joinQueue_of_not_idle (hs : t.state ≠ .idle) :
    joinQueue k t e = endRead { t with chan := { t.chan with queue := t.chan.queue ++ [e] } } :=
  if_neg (by rw [endRead_state]; exact hs)

/-- An IDLE tenant takes the entry it has read at once (R28). -/
theorem joinQueue_of_idle (hs : t.state = .idle) (hw : t.chan.refetchWaiting = false) (hq : t.chan.queue = []) :
    joinQueue k t e = admitCurrent k { t with current := some e, chan := { t.chan with inFlight := none } } := by
  have hread := endRead_of_not_waiting (t := { t with chan := { t.chan with queue := t.chan.queue ++ [e] } }) hw
  rw [joinQueue, hread]
  simp only [hs, if_true, hq, List.nil_append, takeHead]

end

/-- Settles O32: the entry joins, and what leaves the channel decides the rest. -/
theorem fetchReadAnswered : Obligations.FetchReadAnswered := by
  unfold Obligations.FetchReadAnswered
  intro s k r d he hr
  have hack : ∀ {t : Tenant}, joinQueue k (getTenant s k) ⟨r.seq, .record d⟩ = t →
      exec (.fetchReadAck k d) s = .next (setTenant s k t) := fun ht =>
    (execFetchReadAck_of_outstanding hr).trans (congrArg Host.Outcome.next ((if_neg he).trans (congrArg _ ht)))
  have herr : ∀ {t : Tenant}, joinQueue k { getTenant s k with chan := { (getTenant s k).chan with stop := true } }
      ⟨r.seq, .failed⟩ = t → exec (.fetchReadError k) s = .next (setTenant s k t) := fun ht =>
    (execFetchReadError_of_outstanding hr).trans (congrArg Host.Outcome.next ((if_neg he).trans (congrArg _ ht)))
  refine ⟨fun hs hw => ⟨hack ?_, herr ?_⟩,
    fun hs hw hq => ⟨⟨_, hack (joinQueue_of_idle hs hw hq), takenAs_admitCurrent k _⟩, ⟨_, herr ?_, takenAs_admitCurrent k _⟩⟩,
    fun hs hw e hc => ⟨hack ?_, herr ?_⟩⟩
  · exact (joinQueue_of_not_idle hs).trans (endRead_of_not_waiting (by exact hw))
  · exact (joinQueue_of_not_idle (by exact hs)).trans (endRead_of_not_waiting (by exact hw))
  · exact joinQueue_of_idle (t := { getTenant s k with chan := { (getTenant s k).chan with stop := true } }) hs hw hq
  · exact (joinQueue_of_not_idle hs).trans (endRead_of_waiting (by exact hw) (by exact hc))
  · exact (joinQueue_of_not_idle (by exact hs)).trans (endRead_of_waiting (by exact hw) (by exact hc))

/-- Settles O33. -/
theorem controlChannel : Obligations.ControlChannel := by
  unfold Obligations.ControlChannel
  refine ⟨fun s => ⟨fun hon hp hi hent hop => congrArg Host.Outcome.next (tryControlRead_of_reads ⟨hon, hp, hi, hent, hop⟩),
    fun h => congrArg Host.Outcome.next (tryControlRead_of_not ?_)⟩, fun s r d hr hent => ?_⟩
  · rintro ⟨hon, hp, hi, hent, hop⟩
    rcases h with h | h | h | h | ⟨c, hc, h⟩
    · exact h hon
    · exact hp h
    · exact h hi
    · exact h hent
    · rw [hop c hc] at h; cases h
  · have hack : ∀ {t : State}, s.engine ≠ .resetting →
        takeControl { s with control := { s.control with inFlight := none, entry := some ⟨r.seq, d⟩ } } = t →
        exec (.controlFetchAck d) s = .next t := fun he ht =>
      (execControlFetchAck_of_read hr).trans (congrArg Host.Outcome.next ((if_neg he).trans ht))
    have htaken : s.engine = .on → s.control.current = none → exec (.controlFetchAck d) s = .next
        { s with control := { s.control with
          inFlight := none, current := some (begunRecord ⟨r.seq, d⟩),
          cu := { s.control.cu with pending := pendingTaken ⟨r.seq, d⟩ s.control.cu.pending } } } := by
      intro hon hcur
      have hent' : ({ s with control := { s.control with inFlight := none, entry := some ⟨r.seq, d⟩ } } : State).control.entry =
        some ⟨r.seq, d⟩ := rfl
      refine hack (by simp [hon]) ((takeControl_of_entry (by exact hon) (by exact hcur) hent').trans ?_)
      simp only [hent]
    refine ⟨fun hon hcur => ⟨fun hk => ?_, fun kd hk => ⟨fun hkd => ?_, fun hkd => ?_⟩⟩, fun h => ?_, fun h => ?_⟩
    · rw [htaken hon hcur, pendingTaken_of_unknown hk]
      rfl
    · rw [htaken hon hcur, pendingTaken_of_tenant hk hkd]
      rfl
    · rw [htaken hon hcur, pendingTaken_of_control hk hkd]
      rfl
    · rcases h with h | ⟨hon, hcur⟩
      · exact hack (by simp [h]) (takeControl_of_not (.inl (by simp [h])))
      · exact hack (by simp [hon]) (takeControl_of_not (.inr (.inl hcur)))
    · have hne : s.engine ≠ .resetting := by rcases h with h | h <;> simp [h]
      have hstop : (if s.engine = .on then Engine.ctlStopped else s.engine) = .ctlStopped := by
        rcases h with h | h <;> simp [h]
      refine (execControlFetchError_of_read hr).trans (congrArg Host.Outcome.next ((if_neg hne).trans ?_))
      rw [hstop]

section
variable {k : TenantId} {t : Tenant} {q : Index} {d : Record}

/-- The record a REFETCH brings replaces the current one and is taken as a head (R32). -/
theorem refetched_of_halted (hs : t.state = .halted) : refetched k t q d = admitCurrent k { t with
    current := some ⟨q, .record d⟩, haltReason := none, recovery := none,
    chan := { t.chan with inFlight := none, stop := t.chan.stop && queueHasFailed t.chan.queue } } := by
  simp only [refetched, clearStop_eq, hs, if_true]

theorem refetchFailed_of_halted (hs : t.state = .halted) : refetchFailed k t q = admitCurrent k { t with
    current := some ⟨q, .failed⟩, recovery := none, chan := { t.chan with inFlight := none, stop := true } } :=
  (if_pos hs).trans (admitCurrent_of_failed rfl).symm

/-- The test for PAUSED after a marked read (R9). -/
theorem endDiscardedRead_of_paused (hw : t.chan.refetchWaiting = false) (hs : t.state = .idle)
    (hd : t.drainRequested = true) (hc : t.current = none) (hq : t.chan.queue = []) :
    endDiscardedRead t = { t with state := .paused, chan := { t.chan with inFlight := none } } := by
  simp only [endDiscardedRead, endRead_of_not_waiting hw]
  exact if_pos ⟨hs, by simp [pauseConditions, hd, hc, hq]⟩

theorem endDiscardedRead_of_not_paused (h : t.state ≠ .idle ∨ t.drainRequested = false) :
    endDiscardedRead t = endRead t := by
  refine if_neg ?_
  rintro ⟨hs, hp⟩
  rw [endRead_state] at hs
  rcases h with h | h
  · exact h hs
  · have hd : (endRead t).drainRequested = t.drainRequested := by
      simp only [endRead]
      split
      · unfold issueRefetch
        split <;> rfl
      · rfl
    simp [pauseConditions, hd, h] at hp

end

/-- Settles O34. -/
theorem refetchAnswered : Obligations.RefetchAnswered := by
  unfold Obligations.RefetchAnswered
  intro s k r d he hr hs
  refine ⟨⟨_, (execRefetchAck_of_outstanding hr).trans (congrArg Host.Outcome.next (if_neg he)), ?_⟩,
    ⟨_, (execRefetchError_of_outstanding hr).trans (congrArg Host.Outcome.next (if_neg he)), ?_⟩⟩
  · rw [refetched_of_halted hs]
    exact takenAs_admitCurrent k _
  · rw [refetchFailed_of_halted hs]
    exact takenAs_admitCurrent k _

theorem endResetIfDrained_of_ne {s : State} (h : s.engine ≠ .resetting) : endResetIfDrained s = s :=
  if_neg fun hc => h hc.1

/-- Settles O35. -/
theorem discardedAnswers : Obligations.DiscardedAnswers := by
  unfold Obligations.DiscardedAnswers
  refine ⟨fun s k r ok he hr hm => ?_, fun s k p ok he hp => ⟨fun hm => ?_, fun hm => ?_⟩⟩
  · have hread : ∀ {t : Tenant}, endDiscardedRead (getTenant s k) = t →
        exec (.discardedReadAnswer k ok) s = .next (setTenant s k t) := fun ht =>
      (execDiscardedReadAnswer_of_marked (ok := ok) hr hm).trans
        (congrArg Host.Outcome.next ((if_neg he).trans (congrArg _ ht)))
    refine ⟨fun hw => ⟨fun hs hd hc hq => hread (endDiscardedRead_of_paused hw hs hd hc hq), fun h => hread ?_⟩,
      fun hw hs e hc => hread ?_⟩
    · exact (endDiscardedRead_of_not_paused h).trans (endRead_of_not_waiting hw)
    · exact (endDiscardedRead_of_not_paused (.inl hs)).trans (endRead_of_waiting hw hc)
  · exact (execDiscardedPostAnswer_of_marked (ok := ok) hp hm).trans
      (congrArg Host.Outcome.next (endResetIfDrained_of_ne he))
  · exact execDiscardedPostAnswer_of_unmarked (ok := ok) hp hm

end Sys2Proof.Machine
end

section
set_option Elab.async false
/-!
# Grants, and the zero-element records (sections 3.1, 3.2, 4.8 and 5.1)
-/

namespace Sys2Proof.Machine

/-! ## The arbiter (R80 to R82) -/

section
variable {s : State} {k : TenantId} {t : Tenant}

theorem grantedTenant_of_none (h : t.progress = none) : grantedTenant t = { t with state := .running } := by
  rw [grantedTenant, h]
  simp only [Option.map_none]

theorem grantedUnit_of_none (h : t.progress = none) : grantedUnit k t =
    { phase := .issuing, granted := some k, plan := none, nextOrd := 0, done := 0, ended := [], wraps := 0,
      extra := 0, outstanding := [], sliceCounter := 0, sliceSize := t.weight * 256, faulting := none } := by
  simp only [grantedUnit, continuedPlan_of_none h, h]

theorem grantedTenant_of_some {g : Progress} (h : t.progress = some g) :
    grantedTenant t = { t with state := .running, progress := some { g with faultAddr := none } } := by
  rw [grantedTenant, h]
  rfl

theorem grantedUnit_of_some {g : Progress} {q : Index} {r : Record} (h : t.progress = some g)
    (hc : t.current = some ⟨q, .record r⟩) : grantedUnit k t =
    { phase := .issuing, granted := some k, plan := planOf t r (g.cursorAtStart.getD 0),
      nextOrd := g.done, done := g.done, ended := [], wraps := g.wraps, extra := g.extra, outstanding := [],
      sliceCounter := 0, sliceSize := t.weight * 256, faulting := none } := by
  simp only [grantedUnit, continuedPlan, h, hc]

/-- The grant as the context table takes it. -/
theorem grantTaken_takeGrant (s : State) (k : TenantId) : GrantTaken s k (takeGrant s k) := by
  refine ⟨fun h => ?_, fun g q r h hc => ?_⟩
  · simp only [takeGrant, grantedTenant_of_none h, grantedUnit_of_none h]
  · simp only [takeGrant, grantedTenant_of_some h, grantedUnit_of_some h hc]

theorem rotationOrder_length (p : TenantId) : (rotationOrder p).length = 7 := rfl

theorem rotationOrder_getElem (p i : TenantId) :
    (rotationOrder p)[i.val]'((rotationOrder_length p).symm ▸ i.isLt) = p + i := by fin_cases i <;> rfl

/-- The arbiter picks the first READY tenant from the rotation pointer upward (R81). -/
theorem nextGrant_eq_some (hk : (getTenant s k).state = .ready)
    (hfirst : ∀ j : TenantId, (j - s.rotation).val < (k - s.rotation).val → (getTenant s j).state ≠ .ready) :
    nextGrant s = some k := by
  refine List.find?_eq_some_iff_getElem.2 ⟨by simp [hk], (k - s.rotation).val,
    (rotationOrder_length _).symm ▸ (k - s.rotation).isLt, ?_,
    fun j hj => ?_⟩
  · rw [rotationOrder_getElem, add_sub_cancel]
  · have hlt : j < 7 := hj.trans (k - s.rotation).isLt
    have hget := rotationOrder_getElem s.rotation ⟨j, hlt⟩
    simp only at hget
    rw [hget]
    have := hfirst (s.rotation + ⟨j, hlt⟩) (by rwa [add_sub_cancel_left])
    simpa using this

theorem nextGrant_eq_none (h : ∀ k, (getTenant s k).state ≠ .ready) : nextGrant s = none := by
  simp [nextGrant, h]

theorem with_grantInProgress_self {g : Option TenantId} (h : s.grantInProgress = g) :
    { s with grantInProgress := g } = s := by
  subst h
  rfl

/-- With no request in progress, or one whose tenant is READY no more, the arbiter sends one (R1, R81). -/
theorem execGrant_of_sending (hs : serving s = true) (hp : s.tu.phase = .free)
    (hg : s.grantInProgress = none ∨ ∃ j, s.grantInProgress = some j ∧ (getTenant s j).state ≠ .ready) :
    execGrant s = .next (sendGrant { s with grantInProgress := none }) := by
  refine congrArg Host.Outcome.next ((if_pos ⟨hs, hp⟩).trans ?_)
  rcases hg with hg | ⟨j, hj, hne⟩
  · rw [with_grantInProgress_self hg, hg]
  · rw [hj]
    exact if_neg hne

theorem execGrant_of_request (hs : serving s = true) (hp : s.tu.phase = .free) (hg : s.grantInProgress = some k)
    (hk : (getTenant s k).state = .ready) : execGrant s = .next (takeGrant s k) := by
  refine congrArg Host.Outcome.next ((if_pos ⟨hs, hp⟩).trans ?_)
  rw [hg]
  exact if_pos hk

theorem sendGrant_of_some (h : nextGrant s = some k) : sendGrant s =
    if Config.grantDelayed s.draws = true then { s with grantInProgress := some k, draws := s.draws + 1 }
    else takeGrant { s with draws := s.draws + 1 } k := by
  simp only [sendGrant, h]

theorem sendGrant_of_none (h : nextGrant s = none) : sendGrant s = s := by simp only [sendGrant, h]

end

/-- Settles O36. -/
theorem grantPicksNextInRotation : Obligations.GrantPicksNextInRotation := by
  unfold Obligations.GrantPicksNextInRotation
  refine ⟨fun s k hs hp hg hk => ⟨_, execGrant_of_request hs hp hg hk, grantTaken_takeGrant s k⟩,
    fun s hs hp hg => ⟨fun k hk hfirst => ?_, fun hnone => ?_⟩, fun s h => congrArg Host.Outcome.next (if_neg ?_)⟩
  · have hnext : nextGrant { s with grantInProgress := none } = some k := nextGrant_eq_some (by exact hk) hfirst
    refine ⟨Config.grantDelayed s.draws, _,
      (execGrant_of_sending hs hp hg).trans (congrArg _ (sendGrant_of_some hnext)), fun hd => if_pos hd, fun hd => ?_⟩
    rw [if_neg (by simp [hd])]
    exact grantTaken_takeGrant { s with draws := s.draws + 1 } k
  · exact (execGrant_of_sending hs hp hg).trans (congrArg Host.Outcome.next (sendGrant_of_none (nextGrant_eq_none hnone)))
  · rintro ⟨hs, hp⟩
    rcases h with h | h
    · rw [hs] at h; cases h
    · exact h hp

/-! ## A record that ends within its first grant -/

section
variable {s : State} {k : TenantId} {t : Tenant} {r : Record}

theorem refuseGrant_eq (h : (getTenant s k).pendingMap = none) (reason : Reason) :
    refuseGrant s k reason = refusedGrant s k reason := by
  have hp := (refuseRecord_frame k (getTenant s k) reason).2.2.2.2
  rw [refuseGrant, endGrant_of_none (hp.trans h), refuseRecord_eq]
  rfl

theorem finishZeroElement_eq (h : t.pendingMap = none) (aux : Word) :
    finishZeroElement s k t aux = zeroElementDone s k t aux :=
  endGrant_of_none h

theorem slotOfNumber_of_gt {n : Nat} (h : 3 < n) : slotOfNumber n = none := lineOfNumber_eq_none_iff.2 h

theorem slotOfNumber_of_val (i : Fin 4) : slotOfNumber i.val = some i := by fin_cases i <;> rfl

theorem exists_slot {n : Nat} (h : n ≤ 3) : ∃ i : Fin 4, i.val = n := ⟨⟨n, by omega⟩, rfl⟩

/-! ### SURFACE (R39 to R41) -/

section
variable {slot : Fin 4}

theorem execSurface_of_noSlot (h : FirstGrant s k r .surface) (hs : slotOfNumber (byteAt r 8) = none) :
    execSurface s = .next (refuseGrant s k .badField) := by
  simp only [execSurface, freshGrant_of_firstGrant h, hs]

theorem execSurface_of_check {reason : Reason} (h : FirstGrant s k r .surface)
    (hs : slotOfNumber (byteAt r 8) = some slot) (hc : surfaceCheck (surfaceOf r) = some reason) :
    execSurface s = .next (refuseGrant s k reason) := by
  simp only [execSurface, freshGrant_of_firstGrant h, hs, hc]

theorem execSurface_of_passed (h : FirstGrant s k r .surface) (hs : slotOfNumber (byteAt r 8) = some slot)
    (hc : surfaceCheck (surfaceOf r) = none) :
    execSurface s = .next (finishZeroElement s k (defineSurface (getTenant s k) slot (surfaceOf r)) 0) := by
  simp only [execSurface, freshGrant_of_firstGrant h, hs, hc]

theorem defineSurface_eq (t : Tenant) (slot : Fin 4) (f : Surface) : defineSurface t slot f = { t with
    surfaces := slotSet t.surfaces slot f,
    window := if t.window.map (fun w => w.slot) = some slot then none else t.window } := by
  simp only [defineSurface]
  rcases t.window with _ | w
  · rfl
  · simp only [Option.map_some, Option.some.injEq]

end

/-- The coded fields of a surface out of range (R39, order 1). -/
def SurfaceBad (f : Surface) : Prop :=
  (f.size ≠ 1 ∧ f.size ≠ 2 ∧ f.size ≠ 4) ∨ f.width = 0 ∨ 4096 < f.width ∨ f.height = 0 ∨ 4096 < f.height ∨
    f.pitch < f.size * f.width ∨ 65532 < f.pitch

theorem sizeValid_eq_false_iff {n : Nat} : sizeValid n = false ↔ n ≠ 1 ∧ n ≠ 2 ∧ n ≠ 4 := by
  simp [sizeValid, and_assoc]

section
variable {f : Surface}

theorem surfaceCheck_of_bad (h : SurfaceBad f) : surfaceCheck f = some .badField := by
  refine if_pos ?_
  simp only [Bool.or_eq_true, Bool.not_eq_true', sizeValid_eq_false_iff, beq_iff_eq, decide_eq_true_eq, or_assoc]
  exact h

theorem surfaceCheck_of_not_bad (h : ¬SurfaceBad f) : surfaceCheck f =
    if f.base % f.size ≠ 0 ∨ f.pitch % f.size ≠ 0 then some .align
    else if 8388608 < f.base + (f.height - 1) * f.pitch + f.width * f.size then some .notFit else none := by
  refine if_neg fun hb => h ?_
  simp only [Bool.or_eq_true, Bool.not_eq_true', sizeValid_eq_false_iff, beq_iff_eq, decide_eq_true_eq, or_assoc] at hb
  exact hb

end

end

/-- Settles O37. -/
theorem surfaceRecord : Obligations.SurfaceRecord := by
  unfold Obligations.SurfaceRecord
  intro s k r h hpend f bad unaligned outside
  have hrefused : ∀ {reason : Reason}, execSurface s = .next (refuseGrant s k reason) →
      exec .surface s = .next (refusedGrant s k reason) := fun he => he.trans (congrArg _ (refuseGrant_eq hpend _))
  have hslot : ¬bad → ∃ slot : Fin 4, slot.val = byteAt r 8 ∧ slotOfNumber (byteAt r 8) = some slot := fun hb => by
    obtain ⟨slot, hv⟩ := exists_slot (n := byteAt r 8) (by simp only [bad] at hb; omega)
    exact ⟨slot, hv, hv ▸ slotOfNumber_of_val slot⟩
  have hfields : ¬bad → ¬SurfaceBad (surfaceOf r) := fun hb hs => hb (.inr hs)
  refine ⟨fun hb => hrefused ?_, fun hb ha => hrefused ?_, fun hb ha ho => hrefused ?_, fun hb ha ho => ?_⟩
  · rcases hs : slotOfNumber (byteAt r 8) with _ | slot
    · exact execSurface_of_noSlot h hs
    · refine execSurface_of_check h hs (surfaceCheck_of_bad (hb.resolve_left fun hgt => ?_))
      rw [slotOfNumber_of_gt hgt] at hs
      cases hs
  · obtain ⟨slot, _, hs⟩ := hslot hb
    exact execSurface_of_check h hs ((surfaceCheck_of_not_bad (hfields hb)).trans (if_pos ha))
  · obtain ⟨slot, _, hs⟩ := hslot hb
    exact execSurface_of_check h hs ((surfaceCheck_of_not_bad (hfields hb)).trans ((if_neg ha).trans (if_pos ho)))
  · obtain ⟨slot, hv, hs⟩ := hslot hb
    have hpassed := (surfaceCheck_of_not_bad (hfields hb)).trans ((if_neg ha).trans (if_neg ho))
    refine ⟨slot, slotSet (getTenant s k).surfaces slot f, hv, ?_, fun j => slotGet_slotSet _ slot j f⟩
    refine (execSurface_of_passed h hs hpassed).trans (congrArg _ ?_)
    rw [finishZeroElement_eq (by exact hpend), defineSurface_eq]
    rfl

/-! ### WINDOW (R43, R44) -/

section
variable {s : State} {k : TenantId} {r : Record} {w : Window}

theorem execWindow_of_bad (h : FirstGrant s k r .window) (hw : windowOf r = none) :
    execWindow s = .next (refuseGrant s k .badField) := by
  simp only [execWindow, freshGrant_of_firstGrant h, hw]

theorem execWindow_of_noSurface (h : FirstGrant s k r .window) (hw : windowOf r = some w)
    (hf : slotGet (getTenant s k).surfaces w.slot = none) : execWindow s = .next (refuseGrant s k .noSurface) := by
  simp only [execWindow, freshGrant_of_firstGrant h, hw, hf]

theorem execWindow_of_surface {f : Surface} (h : FirstGrant s k r .window) (hw : windowOf r = some w)
    (hf : slotGet (getTenant s k).surfaces w.slot = some f) : execWindow s = .next
      (if f.width ≤ w.x1 ∨ f.height ≤ w.y1 then refuseGrant s k .notFit
        else finishZeroElement s k { getTenant s k with window := some w } 0) := by
  simp only [execWindow, freshGrant_of_firstGrant h, hw, hf]

theorem orderOfCode_of_le {n : Nat} (h : n ≤ 1) : orderOfCode n = some (if n = 0 then .row else .column) := by
  interval_cases n <;> rfl

theorem writePolicyOfCode_of_le {n : Nat} (h : n ≤ 1) : writePolicyOfCode n = some (if n = 0 then .clip else .wrap) := by
  interval_cases n <;> rfl

theorem readPolicyOfCode_of_le {n : Nat} (h : n ≤ 2) :
    readPolicyOfCode n = some (if n = 0 then .hold else if n = 1 then .zero else .wrap) := by
  interval_cases n <;> rfl

theorem orderOfCode_of_gt {n : Nat} (h : 1 < n) : orderOfCode n = none := by
  unfold orderOfCode
  split <;> simp_all

theorem writePolicyOfCode_of_gt {n : Nat} (h : 1 < n) : writePolicyOfCode n = none := by
  unfold writePolicyOfCode
  split <;> simp_all

theorem readPolicyOfCode_of_gt {n : Nat} (h : 2 < n) : readPolicyOfCode n = none := by
  unfold readPolicyOfCode
  split <;> simp_all

/-- The coded fields and corners of a WINDOW record out of range (R43, order 1). -/
def WindowBad (r : Record) : Prop :=
  3 < byteAt r 8 ∨ 1 < byteAt r 9 ∨ 1 < byteAt r 11 ∨ 2 < byteAt r 12 ∨
    halfAt r 20 < halfAt r 16 ∨ halfAt r 22 < halfAt r 18

/-- The window a WINDOW record opens on a slot (R44). -/
def openedWindow (r : Record) (slot : Fin 4) : Window :=
  { slot := slot, x0 := halfAt r 16, y0 := halfAt r 18, x1 := halfAt r 20, y1 := halfAt r 22,
    order := if byteAt r 9 = 0 then .row else .column, xrev := flagAt r 10 0, yrev := flagAt r 10 1,
    writePolicy := if byteAt r 11 = 0 then .clip else .wrap,
    readPolicy := if byteAt r 12 = 0 then .hold else if byteAt r 12 = 1 then .zero else .wrap,
    cursor := 0, held := none }

theorem windowOf_of_bad (h : WindowBad r) : windowOf r = none := by
  unfold windowOf
  split
  next slot order wp rp hs ho hw hr =>
    refine if_pos ?_
    rcases h with h | h | h | h | h
    · rw [slotOfNumber_of_gt h] at hs; cases hs
    · rw [orderOfCode_of_gt h] at ho; cases ho
    · rw [writePolicyOfCode_of_gt h] at hw; cases hw
    · rw [readPolicyOfCode_of_gt h] at hr; cases hr
    · exact h
  next => rfl

theorem windowOf_of_not_bad {slot : Fin 4} (h : ¬WindowBad r) (hs : slot.val = byteAt r 8) :
    windowOf r = some (openedWindow r slot) := by
  simp only [WindowBad, not_or, Nat.not_lt] at h
  obtain ⟨_, ho, hw, hr, hx, hy⟩ := h
  simp only [windowOf, ← hs, slotOfNumber_of_val, orderOfCode_of_le ho, writePolicyOfCode_of_le hw, readPolicyOfCode_of_le hr]
  exact if_neg (by omega)

end

/-- Settles O38. -/
theorem windowRecord : Obligations.WindowRecord := by
  unfold Obligations.WindowRecord
  intro s k r h hpend bad
  have hrefused : ∀ {reason : Reason}, execWindow s = .next (refuseGrant s k reason) →
      exec .window s = .next (refusedGrant s k reason) := fun he => he.trans (congrArg _ (refuseGrant_eq hpend _))
  refine ⟨fun hb => hrefused (execWindow_of_bad h (windowOf_of_bad hb)), fun hb => ?_⟩
  obtain ⟨slot, hs⟩ := exists_slot (n := byteAt r 8) (by simp only [bad] at hb; omega)
  have hw : windowOf r = some (openedWindow r slot) := windowOf_of_not_bad hb hs
  refine ⟨slot, hs, fun hf => hrefused (execWindow_of_noSurface h hw hf), fun f hf => ⟨fun ho => hrefused ?_, fun hx hy => ?_⟩⟩
  · exact (execWindow_of_surface h hw hf).trans (congrArg _ (if_pos ho))
  · refine (execWindow_of_surface h hw hf).trans (congrArg _ ((if_neg ?_).trans (finishZeroElement_eq (by exact hpend) 0)))
    rintro (hx' | hy')
    · exact absurd hx (Nat.not_lt.2 hx')
    · exact absurd hy (Nat.not_lt.2 hy')

/-! ### MARK and PROBE (R78, R79, R113) -/

section
variable {s : State} {k : TenantId} {r : Record}

theorem execMark_eq (h : FirstGrant s k r .mark) : execMark s = .next (finishZeroElement s k (getTenant s k) 0) := by
  simp only [execMark, freshGrant_of_firstGrant h]

theorem execProbe_eq (h : FirstGrant s k r .probe) : execProbe s = .next
    (if 8388608 ≤ (wordAt r 8).toNat then refuseGrant s k .badField
      else finishZeroElement s k (getTenant s k)
        (wordOfEntry (segGet (getTenant s k).segment ((wordAt r 8).toNat / 16384)))) := by
  simp only [execProbe, freshGrant_of_firstGrant h]

end

/-- Settles O39. -/
theorem markAndProbe : Obligations.MarkAndProbe := by
  unfold Obligations.MarkAndProbe
  refine ⟨fun s k r h hpend => (execMark_eq h).trans (congrArg _ (finishZeroElement_eq hpend 0)),
    fun s k r h hpend => ⟨fun ha => ?_, fun ha => ?_⟩⟩
  · exact (execProbe_eq h).trans (congrArg _ ((if_pos ha).trans (refuseGrant_eq hpend _)))
  · exact (execProbe_eq h).trans (congrArg _ ((if_neg (Nat.not_le.2 ha)).trans (finishZeroElement_eq hpend _)))

end Sys2Proof.Machine
end

section
set_option Elab.async false
/-!
# The checks and the start of the data records (sections 4.1, 4.4 to 4.7)
-/

namespace Sys2Proof.Machine

section
variable {s : State} {k : TenantId} {t : Tenant} {r : Record} {w : Window} {f : Surface}

/-- The modes a size change admits (R64). -/
theorem modeAdmitted_iff {mode a b : Nat} :
    modeAdmitted mode a b = true ↔ a = b ∨ (a < b ∧ mode ≤ 2) ∨ (b < a ∧ (mode = 3 ∨ mode = 4)) := by
  unfold modeAdmitted
  split_ifs with heq hlt
  · simp [heq]
  · simp only [Bool.or_eq_true, beq_iff_eq, modeZero, modeSign, modeReplicate]
    omega
  · simp only [Bool.or_eq_true, beq_iff_eq, modeLow, modeHigh]
    omega

theorem modeAdmitted_eq_false_iff {mode a b : Nat} :
    modeAdmitted mode a b = false ↔ ¬(a = b ∨ (a < b ∧ mode ≤ 2) ∨ (b < a ∧ (mode = 3 ∨ mode = 4))) := by
  rw [← modeAdmitted_iff, Bool.not_eq_true]

theorem windowSurface_eq_none_iff :
    windowSurface t = none ↔ t.window = none ∨ ∃ w, t.window = some w ∧ slotGet t.surfaces w.slot = none := by
  unfold windowSurface
  rcases t.window with _ | w <;> simp

/-! ## The checks of PUT and GET (R68, R71) -/

/-- Count or size out of range (order 1). -/
def LinearBad (r : Record) : Prop :=
  (wordAt r 16).toNat = 0 ∨ 16777215 < (wordAt r 16).toNat ∨ (byteAt r 8 ≠ 1 ∧ byteAt r 8 ≠ 2 ∧ byteAt r 8 ≠ 4)

theorem linearCheck_of_bad (h : LinearBad r) (put : Bool) : linearCheck t r put = some .badField :=
  if_pos (h.imp_right fun h => h.imp_right sizeValid_eq_false_iff.2)

theorem linearCheck_of_noWindow (h : ¬LinearBad r) (hw : windowSurface t = none) (put : Bool) :
    linearCheck t r put = some .noWindow := by
  refine (if_neg fun hb => h (hb.imp_right fun h => h.imp_right sizeValid_eq_false_iff.1)).trans ?_
  rw [hw]

theorem linearCheck_of_window (h : ¬LinearBad r) (hw : windowSurface t = some (w, f)) (put : Bool) :
    linearCheck t r put =
      if modeAdmitted (byteAt r 9) (if put then byteAt r 8 else f.size) (if put then f.size else byteAt r 8) = false then
        some .badField
      else if (wordAt r 12).toNat % byteAt r 8 ≠ 0 then some .align
      else if 8388608 < (wordAt r 12).toNat + (wordAt r 16).toNat * byteAt r 8 then some .notFit
      else none := by
  refine (if_neg fun hb => h (hb.imp_right fun h => h.imp_right sizeValid_eq_false_iff.1)).trans ?_
  rw [hw]

theorem windowSurface_of_linearCheck {put : Bool} (h : linearCheck t r put = none) : windowSurface t ≠ none := by
  intro hw
  by_cases hb : LinearBad r
  · rw [linearCheck_of_bad hb] at h; cases h
  · rw [linearCheck_of_noWindow hb hw] at h; cases h

/-! ## PUT and GET (R67 to R71) -/

/-- PUT with `put`, else GET: the two records whose checks are those of `linearCheck`. -/
def linearInstr (put : Bool) : Instr := if put then .put else .get

def linearKind (put : Bool) : Kind := if put then .put else .get

theorem exec_linear_of_check {put : Bool} {reason : Reason} (h : FirstGrant s k r (linearKind put))
    (hc : linearCheck (getTenant s k) r put = some reason) :
    exec (linearInstr put) s = .next (refuseGrant s k reason) := by
  cases put
  · have hf : freshGrant s .get = some (k, r) := freshGrant_of_firstGrant h
    simp only [linearInstr, exec, execGet, hf, hc]
    rfl
  · have hf : freshGrant s .put = some (k, r) := freshGrant_of_firstGrant h
    simp only [linearInstr, exec, execPut, hf, hc]
    rfl

theorem execGet_of_passed (h : FirstGrant s k r .get) (hc : linearCheck (getTenant s k) r false = none)
    (hw : windowSurface (getTenant s k) = some (w, f)) :
    execGet s = .next (startData s (planGet r w f w.cursor)) := by
  simp only [execGet, freshGrant_of_firstGrant h, hc, hw]

theorem execPut_of_passed (h : FirstGrant s k r .put) (hc : linearCheck (getTenant s k) r true = none)
    (hw : windowSurface (getTenant s k) = some (w, f)) :
    execPut s = .next (if takeUps (planPut r w f w.cursor) = 0 then
        endGrant s k (enterPosting (getTenant s k) (tenantCompletion k (getTenant s k) .ok .none false 0
          (excess (planPut r w f w.cursor)) 0 (windowCursor (getTenant s k)) 0))
      else startData s (planPut r w f w.cursor)) := by
  simp only [execPut, freshGrant_of_firstGrant h, hc, hw]

theorem takeUps_planPut (r : Record) (w : Window) (f : Surface) (cs : Nat) : takeUps (planPut r w f cs) =
    if w.writePolicy = .clip then min (wordAt r 16).toNat (windowArea w - cs) else (wordAt r 16).toNat := by
  unfold takeUps planPut inWindowCount
  cases w.writePolicy <;> rfl

end

/-- Settles O40: the shared checks first, then the start of each record. -/
theorem putAndGetStart : Obligations.PutAndGetStart := by
  unfold Obligations.PutAndGetStart
  intro i kd hi s k r h hpend count size addr bad
  obtain ⟨put, rfl, rfl⟩ : ∃ put, i = linearInstr put ∧ kd = linearKind put := by
    rcases hi with ⟨rfl, rfl⟩ | ⟨rfl, rfl⟩
    · exact ⟨true, rfl, rfl⟩
    · exact ⟨false, rfl, rfl⟩
  have hrefused : ∀ {reason : Reason}, linearCheck (getTenant s k) r put = some reason →
      exec (linearInstr put) s = .next (refusedGrant s k reason) := fun hc =>
    (exec_linear_of_check h hc).trans (congrArg Host.Outcome.next (refuseGrant_eq hpend _))
  refine ⟨fun hb => hrefused (linearCheck_of_bad hb put),
    fun hb hw => hrefused (linearCheck_of_noWindow hb (windowSurface_eq_none_iff.2 hw) put), fun hb w f hw hf => ?_⟩
  have hws : windowSurface (getTenant s k) = some (w, f) := windowSurface_eq_some_iff.2 ⟨hw, hf⟩
  have hcheck := linearCheck_of_window hb hws put
  have hfrom : (if linearKind put = .put then size else f.size) = if put then byteAt r 8 else f.size := by cases put <;> rfl
  have hto : (if linearKind put = .put then f.size else size) = if put then f.size else byteAt r 8 := by cases put <;> rfl
  intro from' to' modeOk last
  have hmode : modeOk ↔ modeAdmitted (byteAt r 9) (if put then byteAt r 8 else f.size)
      (if put then f.size else byteAt r 8) ≠ false := by
    rw [← hfrom, ← hto, Ne, modeAdmitted_eq_false_iff, not_not]
  refine ⟨fun hm => hrefused (hcheck.trans (if_pos (not_not.1 (mt hmode.2 hm)))),
    fun hm ha => hrefused (hcheck.trans ((if_neg (hmode.1 hm)).trans (if_pos ha))),
    fun hm ha hl => hrefused (hcheck.trans ((if_neg (hmode.1 hm)).trans ((if_neg (not_not.2 ha)).trans (if_pos hl)))),
    fun hm ha hl => ?_⟩
  have hpass : linearCheck (getTenant s k) r put = none :=
    hcheck.trans ((if_neg (hmode.1 hm)).trans ((if_neg (not_not.2 ha)).trans (if_neg hl)))
  have hcount : (wordAt r 16).toNat ≠ 0 := fun h0 => hb (.inl h0)
  cases put
  · exact ⟨fun _ => execGet_of_passed h hpass hws, fun hk => absurd hk (by decide), fun hk => absurd hk (by decide)⟩
  · have hput := execPut_of_passed h hpass hws
    refine ⟨fun hk => absurd hk (by decide), fun _ hp => hput.trans (congrArg _ (if_neg ?_)), fun _ hp hcur => ?_⟩
    · rw [takeUps_planPut]
      rcases hp with hp | hp
      · rw [hp]
        exact hcount
      · split_ifs <;> omega
    · have h0 : takeUps (planPut r w f w.cursor) = 0 := by
        rw [takeUps_planPut, if_pos hp, Nat.sub_eq_zero_of_le hcur, Nat.min_zero]
      have hexcess : excess (planPut r w f w.cursor) = (wordAt r 16).toNat := by rw [excess, h0]; rfl
      have hcursor : windowCursor (getTenant s k) = BitVec.ofNat 32 w.cursor := by simp only [windowCursor, hw]
      refine hput.trans (congrArg _ ((if_pos h0).trans ((endGrant_of_none (by exact hpend)).trans ?_)))
      rw [hexcess, hcursor]
      rfl

/-! ## COPY and FILL (R73, R74, R76) -/

section
variable {s : State} {k : TenantId} {r : Record} {a b : Fin 4} {o : Order} {src dst f : Surface}

theorem sidesBad_iff {w h : Nat} : sidesBad w h = true ↔ w = 0 ∨ 4096 < w ∨ h = 0 ∨ 4096 < h := by
  simp [sidesBad, or_assoc]

theorem rectOutside_iff {x y w h : Nat} : rectOutside f x y w h = true ↔ f.width < x + w ∨ f.height < y + h := by
  simp [rectOutside]

/-- The coded fields or sides of a COPY out of range (R73, order 1). -/
def CopyBad (r : Record) : Prop :=
  3 < byteAt r 8 ∨ 3 < byteAt r 9 ∨ 1 < byteAt r 10 ∨
    halfAt r 24 = 0 ∨ 4096 < halfAt r 24 ∨ halfAt r 26 = 0 ∨ 4096 < halfAt r 26

theorem execCopy_of_bad (h : FirstGrant s k r .copy) (hb : CopyBad r) :
    execCopy s = .next (refuseGrant s k .badField) := by
  simp only [execCopy, freshGrant_of_firstGrant h]
  split
  next ha hb' ho =>
    refine congrArg _ (if_pos (sidesBad_iff.2 ?_))
    rcases hb with hb | hb | hb | hb
    · rw [slotOfNumber_of_gt hb] at ha; cases ha
    · rw [slotOfNumber_of_gt hb] at hb'; cases hb'
    · rw [orderOfCode_of_gt hb] at ho; cases ho
    · exact hb
  next => rfl

/-- The slots and the order of a COPY whose fields are in range. -/
theorem execCopy_of_slots (h : FirstGrant s k r .copy) (hb : ¬CopyBad r) (ha : a.val = byteAt r 8)
    (hb' : b.val = byteAt r 9) :
    (slotGet (getTenant s k).surfaces a = none ∨ slotGet (getTenant s k).surfaces b = none →
      execCopy s = .next (refuseGrant s k .noSurface)) ∧
    ∀ src dst, slotGet (getTenant s k).surfaces a = some src → slotGet (getTenant s k).surfaces b = some dst →
      execCopy s = .next
        (if modeAdmitted (byteAt r 12) src.size dst.size = false then refuseGrant s k .badField
          else if (rectOutside src (halfAt r 16) (halfAt r 18) (halfAt r 24) (halfAt r 26) ||
            rectOutside dst (halfAt r 20) (halfAt r 22) (halfAt r 24) (halfAt r 26)) = true then refuseGrant s k .notFit
          else startData s (planCopy r src dst (if byteAt r 10 = 0 then .row else .column))) := by
  simp only [CopyBad, not_or, Nat.not_lt] at hb
  obtain ⟨_, _, ho, hsides⟩ := hb
  have hgood : sidesBad (halfAt r 24) (halfAt r 26) = false := by
    rw [← Bool.not_eq_true, sidesBad_iff]
    omega
  refine ⟨fun hn => ?_, fun src dst hsrc hdst => ?_⟩
  · simp only [execCopy, freshGrant_of_firstGrant h, ← ha, ← hb', slotOfNumber_of_val, orderOfCode_of_le ho, hgood,
      Bool.false_eq_true, if_false]
    split
    next hsrc hdst => exact absurd hn (by simp [hsrc, hdst])
    next => rfl
  · simp only [execCopy, freshGrant_of_firstGrant h, ← ha, ← hb', slotOfNumber_of_val, orderOfCode_of_le ho, hgood,
      Bool.false_eq_true, if_false, hsrc, hdst]

/-- The coded fields or sides of a FILL out of range (R76, order 1). -/
def FillBad (r : Record) : Prop :=
  3 < byteAt r 8 ∨ halfAt r 16 = 0 ∨ 4096 < halfAt r 16 ∨ halfAt r 18 = 0 ∨ 4096 < halfAt r 18

theorem execFill_of_bad (h : FirstGrant s k r .fill) (hb : FillBad r) :
    execFill s = .next (refuseGrant s k .badField) := by
  simp only [execFill, freshGrant_of_firstGrant h]
  split
  next => rfl
  next ha =>
    refine congrArg _ (if_pos (sidesBad_iff.2 (hb.resolve_left fun hgt => ?_)))
    rw [slotOfNumber_of_gt hgt] at ha; cases ha

theorem sidesBad_of_not_fillBad (hb : ¬FillBad r) : sidesBad (halfAt r 16) (halfAt r 18) = false := by
  rw [← Bool.not_eq_true, sidesBad_iff]
  exact fun hs => hb (.inr hs)

theorem execFill_of_noSurface (h : FirstGrant s k r .fill) (hb : ¬FillBad r) (ha : a.val = byteAt r 8)
    (hf : slotGet (getTenant s k).surfaces a = none) : execFill s = .next (refuseGrant s k .noSurface) := by
  simp only [execFill, freshGrant_of_firstGrant h, ← ha, slotOfNumber_of_val, sidesBad_of_not_fillBad hb, hf,
    Bool.false_eq_true, if_false]

theorem execFill_of_surface (h : FirstGrant s k r .fill) (hb : ¬FillBad r) (ha : a.val = byteAt r 8)
    (hf : slotGet (getTenant s k).surfaces a = some f) : execFill s = .next
      (if rectOutside f (halfAt r 12) (halfAt r 14) (halfAt r 16) (halfAt r 18) = true then refuseGrant s k .notFit
        else startData s (planFill r f)) := by
  simp only [execFill, freshGrant_of_firstGrant h, ← ha, slotOfNumber_of_val, sidesBad_of_not_fillBad hb, hf,
    Bool.false_eq_true, if_false]

end

/-- Settles O41. -/
theorem copyAndFillStart : Obligations.CopyAndFillStart := by
  unfold Obligations.CopyAndFillStart
  refine ⟨?_, ?_⟩
  · intro s k r h hpend w hgt bad
    have hrefused : ∀ {reason : Reason}, execCopy s = .next (refuseGrant s k reason) →
        exec .copy s = .next (refusedGrant s k reason) := fun he => he.trans (congrArg _ (refuseGrant_eq hpend _))
    refine ⟨fun hb => hrefused (execCopy_of_bad h hb), fun hb => ?_⟩
    obtain ⟨a, ha⟩ := exists_slot (n := byteAt r 8) (by simp only [bad] at hb; omega)
    obtain ⟨b, hb'⟩ := exists_slot (n := byteAt r 9) (by simp only [bad] at hb; omega)
    obtain ⟨hnone, hsome⟩ := execCopy_of_slots h hb ha hb'
    refine ⟨a, b, ha, hb', fun hn => hrefused (hnone hn), fun src dst hsrc hdst => ?_⟩
    have hexec := hsome src dst hsrc hdst
    intro modeOk outside
    have hmode : ∀ {x : Prop}, modeOk → (modeAdmitted (byteAt r 12) src.size dst.size = false → x) := fun hm hf =>
      absurd hm (modeAdmitted_eq_false_iff.1 hf)
    refine ⟨fun hm => hrefused (hexec.trans (congrArg _ (if_pos (modeAdmitted_eq_false_iff.2 hm)))),
      fun hm ho => hrefused (hexec.trans (congrArg _ ((if_neg (hmode hm)).trans (if_pos ?_)))),
      fun hm ho => hexec.trans (congrArg _ ((if_neg (hmode hm)).trans (if_neg ?_)))⟩
    · rw [Bool.or_eq_true, rectOutside_iff, rectOutside_iff, or_assoc]
      exact ho
    · rw [Bool.or_eq_true, rectOutside_iff, rectOutside_iff, or_assoc]
      exact ho
  · intro s k r h hpend w hgt bad
    have hrefused : ∀ {reason : Reason}, execFill s = .next (refuseGrant s k reason) →
        exec .fill s = .next (refusedGrant s k reason) := fun he => he.trans (congrArg _ (refuseGrant_eq hpend _))
    refine ⟨fun hb => hrefused (execFill_of_bad h hb), fun hb => ?_⟩
    obtain ⟨a, ha⟩ := exists_slot (n := byteAt r 8) (by simp only [bad] at hb; omega)
    refine ⟨a, ha, fun hf => hrefused (execFill_of_noSurface h hb ha hf), fun f hf => ⟨fun ho => hrefused ?_, fun ho => ?_⟩⟩
    · exact (execFill_of_surface h hb ha hf).trans (congrArg _ (if_pos (rectOutside_iff.2 ho)))
    · exact (execFill_of_surface h hb ha hf).trans (congrArg _ (if_neg fun hx => ho (rectOutside_iff.1 hx)))

end Sys2Proof.Machine
end

section
set_option Elab.async false
/-!
# Placement and value of the elements (sections 3.4 to 3.7, 4.2 to 4.7)
-/

namespace Sys2Proof.Machine

section
variable {p : Plan} {j : Nat}

/-! ## Placement under the overrun policies (R48, R52, R56) -/

theorem inWindow_iff (hn : p.policy ≠ .none) : inWindow p j = true ↔ p.policy = .wrap ∨ p.cs + j < p.area := by
  unfold inWindow
  cases hp : p.policy <;> simp_all

theorem windowOrdinal_eq (p : Plan) (j : Nat) :
    windowOrdinal p j = if p.policy = .wrap then (p.cs + j) % p.area else p.cs + j := by
  unfold windowOrdinal
  cases p.policy <;> rfl

theorem inWindowCount_eq (hn : p.policy ≠ .none) :
    inWindowCount p = if p.policy = .wrap then p.count else min p.count (p.area - p.cs) := by
  unfold inWindowCount
  cases hp : p.policy <;> first | rfl | exact absurd hp hn

/-- An element on the window's last ordinal is in-window. -/
theorem isLast_iff (hn : p.policy ≠ .none) :
    isLast p j = true ↔ (if p.policy = .wrap then (p.cs + j) % p.area else p.cs + j) + 1 = p.area := by
  rw [isLast, Bool.and_eq_true, inWindow_iff hn, windowOrdinal_eq, beq_iff_eq, and_iff_right_iff_imp]
  split_ifs with hw
  · exact fun _ => .inl hw
  · exact fun hl => .inr (by omega)

theorem inWindow_of_none (hn : p.policy = .none) : inWindow p j = false := by simp only [inWindow, hn]

theorem isLast_of_none (hn : p.policy = .none) : isLast p j = false := by rw [isLast, inWindow_of_none hn, Bool.false_and]

end

/-! ## The plans of PUT and GET (R61, R67, R70) -/

section
variable (r : Record) (w : Window) (f : Surface) (cs : Nat)

theorem planPut_policy : (planPut r w f cs).policy = if w.writePolicy = .clip then .clip else .wrap := by
  simp only [planPut]
  cases w.writePolicy <;> rfl

theorem planPut_policy_ne_none : (planPut r w f cs).policy ≠ .none := by
  rw [planPut_policy]
  split_ifs <;> simp

theorem planPut_policy_eq_wrap_iff : (planPut r w f cs).policy = .wrap ↔ ¬w.writePolicy = .clip := by
  rw [planPut_policy]
  split_ifs with h <;> simp [h]

theorem planGet_policy_ne_none : (planGet r w f cs).policy ≠ .none := by
  simp only [planGet]
  cases w.readPolicy <;> simp

theorem planGet_policy_eq_wrap_iff : (planGet r w f cs).policy = .wrap ↔ w.readPolicy = .wrap := by
  simp only [planGet]
  cases w.readPolicy <;> simp

theorem takeUps_planGet : takeUps (planGet r w f cs) = (wordAt r 16).toNat := by
  unfold takeUps planGet
  cases w.readPolicy <;> rfl

end

/-! ## The walks of COPY and FILL (R46, R73, R76) -/

section
variable {f : Surface} {x y w h j : Nat} {o : Order} {xrev yrev : Bool}

/-- A reversed walk within its rectangle counts down from the last column and row. -/
theorem walkAddr_rectWalk (hj : j < w * h) : walkAddr (rectWalk f x y w h o xrev yrev) j =
    let c := match o with | .row => j % w | .column => j / h
    let l := match o with | .row => j / w | .column => j % h
    f.base + (y + if yrev then h - 1 - l else l) * f.pitch + (x + if xrev then w - 1 - c else c) * f.size := by
  have hpos : 0 < w ∧ 0 < h := by
    constructor <;> rw [Nat.pos_iff_ne_zero] <;> rintro rfl <;> simp at hj
  have hcol := walkColumn_lt (w := rectWalk f x y w h o xrev yrev) hpos.1 hj
  have hrow := walkRow_lt (w := rectWalk f x y w h o xrev yrev) hpos.2 hj
  have hx : walkX (rectWalk f x y w h o xrev yrev) j =
      x + if xrev then w - 1 - walkColumn (rectWalk f x y w h o xrev yrev) j
        else walkColumn (rectWalk f x y w h o xrev yrev) j := by
    have hcol' : walkColumn (rectWalk f x y w h o xrev yrev) j < w := hcol
    cases xrev
    · rfl
    · show x + w - 1 - _ = x + (w - 1 - _)
      omega
  have hy : walkY (rectWalk f x y w h o xrev yrev) j =
      y + if yrev then h - 1 - walkRow (rectWalk f x y w h o xrev yrev) j
        else walkRow (rectWalk f x y w h o xrev yrev) j := by
    have hrow' : walkRow (rectWalk f x y w h o xrev yrev) j < h := hrow
    cases yrev
    · rfl
    · show y + h - 1 - _ = y + (h - 1 - _)
      omega
  rw [walkAddr, hx, hy]
  cases o <;> rfl

/-- A walk by rows that is not reversed needs no bound. -/
theorem walkAddr_rectWalk_rows : walkAddr (rectWalk f x y w h .row false false) j =
    f.base + (y + j / w) * f.pitch + (x + j % w) * f.size := rfl

end

/-! ## The value written (R61, R65) -/

theorem getLsbD_elementValue {p : Plan} {v : Word} {i : Nat} (hd : p.dstSize = 1 ∨ p.dstSize = 2 ∨ p.dstSize = 4)
    (hi : i < 8 * p.dstSize) : (elementValue p v).getLsbD i =
      if p.modify then ((convert p.mode p.srcSize p.dstSize v).getLsbD i && p.mask.getLsbD i) ^^ p.pattern.getLsbD i
      else (convert p.mode p.srcSize p.dstSize v).getLsbD i := by
  have hi' : i < 32 := by omega
  rw [elementValue, modifyValue]
  split_ifs
  · simp [BitVec.getLsbD_xor, BitVec.getLsbD_and, getLsbD_cutTo, hi]
  · rfl

/-- The plan of a COPY whose slots hold surfaces. -/
theorem planOf_copy {t : Tenant} {r : Record} {a b : Fin 4} {src dst : Surface} (hk : kindOf r = some .copy)
    (ho : byteAt r 10 ≤ 1) (ha : a.val = byteAt r 8) (hb : b.val = byteAt r 9) (hsrc : slotGet t.surfaces a = some src)
    (hdst : slotGet t.surfaces b = some dst) (cs : Nat) :
    planOf t r cs = some (planCopy r src dst (if byteAt r 10 = 0 then .row else .column)) := by
  simp only [planOf, hk, ← ha, ← hb, slotOfNumber_of_val, orderOfCode_of_le ho, hsrc, hdst]

theorem planOf_fill {t : Tenant} {r : Record} {a : Fin 4} {f : Surface} (hk : kindOf r = some .fill)
    (ha : a.val = byteAt r 8) (hf : slotGet t.surfaces a = some f) (cs : Nat) : planOf t r cs = some (planFill r f) := by
  simp only [planOf, hk, ← ha, slotOfNumber_of_val, hf, Option.map_some]

/-- Settles O42. -/
theorem elementPlacementAndValue : Obligations.ElementPlacementAndValue := by
  unfold Obligations.ElementPlacementAndValue
  refine ⟨?_, ?_, ?_, ?_, fun p v i hd hi => getLsbD_elementValue hd hi, fun n i v _ _ => getLsbD_cutTo n v i,
    fun t r cs => ⟨fun hk w f hw hf => ?_, fun hk ho a b src dst ha hb hsrc hdst => planOf_copy hk ho ha hb hsrc hdst cs,
      fun hk a f ha hf => planOf_fill hk ha hf cs⟩⟩
  · intro r w f cs j p count clip
    have hwrap : p.policy = .wrap ↔ ¬clip := planPut_policy_eq_wrap_iff r w f cs
    have hne : p.policy ≠ .none := planPut_policy_ne_none r w f cs
    have hord : windowOrdinal p j = if clip then cs + j else (cs + j) % windowArea w := by
      rw [windowOrdinal_eq, if_congr hwrap rfl rfl, ite_not]
      rfl
    refine ⟨rfl, rfl, rfl, rfl, planPut_policy r w f cs, rfl, rfl, rfl, rfl, rfl, rfl, ?_, ?_, ?_,
      takeUps_planPut r w f cs, rfl, rfl, ?_⟩
    · rw [inWindow_iff hne, hwrap]
      rfl
    · rw [inWindowCount_eq hne, if_congr hwrap rfl rfl, ite_not]
      rfl
    · rw [isLast_iff hne, if_congr hwrap rfl rfl, ite_not]
      rfl
    · show walkAddr (windowWalk f w) (windowOrdinal p j) = _
      rw [hord]
  · intro r w f cs j p count wrap
    have hwrap : p.policy = .wrap ↔ wrap := planGet_policy_eq_wrap_iff r w f cs
    have hne : p.policy ≠ .none := planGet_policy_ne_none r w f cs
    have hin : inWindow p j = true ↔ wrap ∨ cs + j < windowArea w := by
      rw [inWindow_iff hne, hwrap]
      rfl
    refine ⟨rfl, rfl, rfl, rfl, ?_, rfl, rfl, rfl, rfl, rfl, rfl, hin, ?_, ?_, takeUps_planGet r w f cs, hin, ?_, rfl, rfl⟩
    · rcases hread : w.readPolicy <;> simp only [p, planGet, hread]
    · rw [inWindowCount_eq hne, if_congr hwrap rfl rfl]
      rfl
    · rw [isLast_iff hne, if_congr hwrap rfl rfl]
      rfl
    · show walkAddr (windowWalk f w) (windowOrdinal p j) = _
      rw [windowOrdinal_eq, if_congr hwrap rfl rfl]
      rfl
  · intro r src dst o j p c l x y
    refine ⟨rfl, rfl, rfl, rfl, rfl, rfl, rfl, rfl, rfl, inWindow_of_none rfl, isLast_of_none rfl,
      fun hj => ⟨rfl, rfl, walkAddr_rectWalk hj, walkAddr_rectWalk hj⟩⟩
  · intro r f j p
    exact ⟨rfl, rfl, rfl, rfl, rfl, inWindow_of_none rfl, isLast_of_none rfl, rfl, rfl, walkAddr_rectWalk_rows⟩
  · have hws := windowSurface_eq_some_iff.2 ⟨hw, hf⟩
    rcases hk with hk | hk
    · rw [planOf_put hk hws, if_pos hk]
    · rw [planOf_get hk hws, if_neg (by simp [hk])]

end Sys2Proof.Machine
end

section
set_option Elab.async false
/-!
# The element pipeline as the rules state it: holds, faults and take-ups (sections 4.3, 5.2.1 and 5.4)
-/

namespace Sys2Proof.Machine

/-! ## The end of a hold (R86, R184) -/

section
variable {s : State} {k : TenantId} {p : Plan} {seg : Segment} {u : TransferUnit}

/-- A hold ends for an element the unit still issues for, whose held transaction nothing blocks. -/
theorem holdEnded_iff {e : Elem} : holdEnded seg p u e = true ↔ stoppedFor u e.ord = false ∧
    ((e.stage = .readHeld ∧ blocked seg p u.outstanding e.ord false e.readAddr p.srcSize = false) ∨
     (e.stage = .writeHeld ∧ blocked seg p u.outstanding e.ord true e.writeAddr p.dstSize = false)) := by
  unfold holdEnded
  cases e.stage <;> simp

/-- The released holds, as the rules state them. -/
theorem releaseHeld_eq (k : TenantId) (p : Plan) (s : State) : releaseHeld k p s = holdsReleased k p s := by
  have hclears : (p.kind == .put && s.tu.outstanding.any fun e =>
      holdEnded (getTenant s k).segment p s.tu e && e.stage == .writeHeld && isLast p e.ord) = true ↔
      p.kind = .put ∧ ∃ e ∈ s.tu.outstanding, e.stage = .writeHeld ∧
        holdEnded (getTenant s k).segment p s.tu e = true ∧ isLast p e.ord = true := by
    simp only [Bool.and_eq_true, beq_iff_eq, List.any_eq_true]
    exact and_congr_right fun _ => exists_congr fun e => and_congr_right fun _ =>
      ⟨fun ⟨⟨h1, h2⟩, h3⟩ => ⟨h2, h1, h3⟩, fun ⟨h1, h2, h3⟩ => ⟨⟨h2, h1⟩, h3⟩⟩
  have htenant : ∀ (c : Prop) [Decidable c], (if c then setHeld (getTenant s k) none else getTenant s k) =
      { getTenant s k with window :=
        if c then (getTenant s k).window.map fun w => { w with held := none } else (getTenant s k).window } := by
    intro c _
    split_ifs <;> rfl
  simp only [releaseHeld, holdsReleased, htenant]
  refine congrArg₂ (fun (w : Option Window) (out : List Elem) =>
    ({ setTenant s k { getTenant s k with window := w } with tu := { s.tu with outstanding := out } } : State)) ?_ ?_
  · exact if_congr hclears rfl rfl
  · refine List.map_congr_left fun e _ => ?_
    by_cases he : holdEnded (getTenant s k).segment p s.tu e = true
    · rw [if_pos he, if_pos he]
      rcases (holdEnded_iff.1 he).2 with ⟨hst, _⟩ | ⟨hst, _⟩ <;> simp only [issueHeld, hst] <;> rfl
    · rw [if_neg he, if_neg he]

/-- With no hold ended nothing is released. -/
theorem releaseHeld_of_none (h : ∀ e ∈ s.tu.outstanding, holdEnded (getTenant s k).segment p s.tu e = false) :
    releaseHeld k p s = s := by
  have hany : (s.tu.outstanding.any fun e =>
      holdEnded (getTenant s k).segment p s.tu e && e.stage == .writeHeld && isLast p e.ord) = false :=
    List.any_eq_false.2 fun e he => by simp [h e he]
  have hmap : (s.tu.outstanding.map fun e =>
      if holdEnded (getTenant s k).segment p s.tu e = true then issueHeld e else e) = s.tu.outstanding :=
    (List.map_congr_left fun e he => by simp [h e he]).trans (List.map_id _)
  simp only [releaseHeld, hany, Bool.and_false, Bool.false_eq_true, if_false, setTenant_getTenant]
  rw [hmap]

/-! ## What the unit still issues for (R92, R97, R183) -/

theorem stoppedFor_of_stillIssues {ord : Nat} (h : StillIssues s ord) : stoppedFor s.tu ord = false := by
  unfold stoppedFor
  split
  · exact absurd ‹_› h.1
  next hp =>
    rcases hf : s.tu.faulting with _ | f
    · rfl
    · have := h.2 hp f hf
      simp only [decide_eq_false_iff_not]
      omega
  · rfl

theorem stoppedFor_of_abort {ord : Nat} (h : u.phase = .draining .abort) : stoppedFor u ord = true := by
  simp only [stoppedFor, h]

theorem stoppedFor_of_fault {ord : Nat} {f : Faulting} (h : u.phase = .draining .halt) (hf : u.faulting = some f)
    (ho : f.ord < ord) : stoppedFor u ord = true := by
  simp only [stoppedFor, h, hf, decide_eq_true_eq]
  exact ho

/-- A fault of an element the unit still issues for is recorded (R90, R91). -/
theorem recordFault_of_stillIssues {f : Faulting} (h : StillIssues s f.ord) (out : List Elem) :
    recordFault { s.tu with outstanding := out } f = haltedUnit s.tu out f := by
  have hlow : lowestFault { s.tu with outstanding := out } f = f := by
    unfold lowestFault
    split_ifs with hp
    · rcases hf : s.tu.faulting with _ | g
      · rfl
      · exact if_pos (h.2 hp g hf)
    · rfl
  rw [recordFault_of_not_abort (u := { s.tu with outstanding := out }) h.1, hlow]
  rfl

theorem stillIssues_of_issuing {ord : Nat} (h : s.tu.phase = .issuing) : StillIssues s ord :=
  ⟨by simp [h], fun hp => by simp [h] at hp⟩

theorem recordFault_of_issuing {f : Faulting} (h : s.tu.phase = .issuing) :
    recordFault s.tu f = haltedUnit s.tu s.tu.outstanding f :=
  recordFault_of_stillIssues (stillIssues_of_issuing h) s.tu.outstanding

/-! ## Take-ups (R83, R85, R86) -/

theorem readySet_eq_nil_iff : readySet s = [] ↔ ∀ j, (getTenant s j).state ≠ .ready := by
  simp [readySet, List.filter_eq_nil_iff, mem_tenantIds]

/-- An element that takes a place below the record's end. -/
theorem placeElem_eq {e : Elem} (h : s.tu.nextOrd < takeUps p) : placeElem s k p e = { s with tu := takenUp s k p e } := by
  unfold placeElem takenUp
  rcases afterTakeUp_cases s k p { s.tu with
    outstanding := s.tu.outstanding ++ [e], nextOrd := s.tu.nextOrd + 1, sliceCounter := s.tu.sliceCounter + 1 } with
    ⟨h1, he⟩ | ⟨h1, h2, h3, he⟩ | ⟨h1, h2, h3, he⟩ | ⟨h1, h2, he⟩
  · have h1' : takeUps p ≤ s.tu.nextOrd + 1 := h1
    simp only [he]
    rw [if_pos (by omega)]
  · have h1' : s.tu.nextOrd + 1 < takeUps p := h1
    simp only [he]
    rw [if_neg (by omega), if_neg (Nat.not_lt.2 h2), if_pos (readySet_eq_nil_iff.1 h3)]
  · have h1' : s.tu.nextOrd + 1 < takeUps p := h1
    simp only [he]
    rw [if_neg (by omega), if_neg (Nat.not_lt.2 h2), if_neg fun hx => h3 (readySet_eq_nil_iff.2 hx)]
  · have h1' : s.tu.nextOrd + 1 < takeUps p := h1
    simp only [he]
    rw [if_neg (by omega), if_pos h2]

/-- The write of `v` by an element with no read, issued or held. -/
def writeElem (s : State) (k : TenantId) (p : Plan) (a : Phys) (v : Word) : Elem :=
  { ord := s.tu.nextOrd, fill := false, readAddr := 0, writeAddr := a, value := v,
    stage := if blocked (getTenant s k).segment p s.tu.outstanding s.tu.nextOrd true a p.dstSize then .writeHeld
      else .writeIssued }

/-- An element's read, or the fill read, issued or held. -/
def readElem (s : State) (k : TenantId) (p : Plan) (a : Phys) (fill : Bool) : Elem :=
  { ord := s.tu.nextOrd, fill := fill, readAddr := a, writeAddr := 0, value := 0,
    stage := if blocked (getTenant s k).segment p s.tu.outstanding s.tu.nextOrd false a p.srcSize then .readHeld
      else .readIssued }

theorem takeUpRead_of_phys {a : Phys} (hlt : s.tu.nextOrd < takeUps p)
    (ha : translateAccess (getTenant s k).segment (srcAddr p s.tu.nextOrd) .read = .phys a) :
    takeUpRead s k p = { s with tu := takenUp s k p (readElem s k p a false) } := by
  simp only [takeUpRead, ha]
  exact placeElem_eq hlt

theorem takeUpRead_of_fault {st : Status} (hp : s.tu.phase = .issuing)
    (hf : translateAccess (getTenant s k).segment (srcAddr p s.tu.nextOrd) .read = .fault st) :
    takeUpRead s k p = { s with tu := (haltedUnit s.tu s.tu.outstanding
      { ord := s.tu.nextOrd, addr := srcAddr p s.tu.nextOrd, status := st, reason := .none }) } := by
  simp only [takeUpRead, hf, recordFault_of_issuing hp]

theorem takeUpWrite_of_phys {a : Phys} {v : Word} (hlt : s.tu.nextOrd < takeUps p)
    (ha : translateAccess (getTenant s k).segment (dstAddr p s.tu.nextOrd) .write = .phys a) :
    takeUpWrite s k p v = { s with tu := takenUp s k p (writeElem s k p a v) } := by
  simp only [takeUpWrite, ha]
  exact placeElem_eq hlt

theorem takeUpWrite_of_fault {st : Status} {v : Word} (hp : s.tu.phase = .issuing)
    (hf : translateAccess (getTenant s k).segment (dstAddr p s.tu.nextOrd) .write = .fault st) :
    takeUpWrite s k p v = { s with tu := (haltedUnit s.tu s.tu.outstanding
      { ord := s.tu.nextOrd, addr := dstAddr p s.tu.nextOrd, status := st, reason := .none }) } := by
  simp only [takeUpWrite, hf, recordFault_of_issuing hp]

theorem issueFillRead_of_phys {a : Phys} (ha : translateAccess (getTenant s k).segment (fillAddr p) .read = .phys a) :
    issueFillRead s k p = { s with tu := { s.tu with outstanding := s.tu.outstanding ++ [readElem s k p a true] } } := by
  simp only [issueFillRead, ha]
  rfl

theorem issueFillRead_of_fault {st : Status} (hp : s.tu.phase = .issuing)
    (hf : translateAccess (getTenant s k).segment (fillAddr p) .read = .fault st) :
    issueFillRead s k p = { s with tu := (haltedUnit s.tu s.tu.outstanding
      { ord := s.tu.nextOrd, addr := fillAddr p, status := st, reason := .none }) } := by
  simp only [issueFillRead, hf, recordFault_of_issuing hp]

/-- The read an overrun element under HOLD waits for (R66, R86). -/
theorem lastReadOutstanding_iff {out : List Elem} : lastReadOutstanding p out = true ↔
    ∃ e ∈ out, (e.stage = .readHeld ∨ e.stage = .readIssued) ∧
      (e.fill = true ∨ (elementReads p e.ord = true ∧ isLast p e.ord = true)) := by
  simp only [lastReadOutstanding, List.any_eq_true, Bool.and_eq_true, Bool.or_eq_true, beq_iff_eq]

theorem takeUpHold_of_outstanding (h : lastReadOutstanding p s.tu.outstanding = true) : takeUpHold s k p = s :=
  if_pos h

theorem takeUpHold_of_held {v : Word} (h : lastReadOutstanding p s.tu.outstanding = false)
    (hv : heldValue (getTenant s k) = some v) : takeUpHold s k p = takeUpWrite s k p (elementValue p v) := by
  simp only [takeUpHold, h, hv, Bool.false_eq_true, if_false]

theorem takeUpHold_of_none (h : lastReadOutstanding p s.tu.outstanding = false)
    (hv : heldValue (getTenant s k) = none) : takeUpHold s k p = issueFillRead s k p := by
  simp only [takeUpHold, h, hv, Bool.false_eq_true, if_false]

/-! ### The command by kind and policy -/

/-- TAKE_UP may act: a place is free and an ordinal is left. -/
def TakesUp (s : State) (k : TenantId) (p : Plan) : Prop :=
  UnderGrant s k p .issuing ∧ s.tu.outstanding.length < 8 ∧ s.tu.nextOrd < takeUps p

theorem execTakeUp_of_not (h : UnderGrant s k p .issuing) (hn : 8 ≤ s.tu.outstanding.length ∨ takeUps p ≤ s.tu.nextOrd) :
    execTakeUp s = .next s := by
  simp only [execTakeUp, runningPlan_of_underGrant h]
  refine congrArg _ (if_neg ?_)
  rintro ⟨_, _, hlen, hlt⟩
  rcases hn with hn | hn
  · exact absurd hlen (Nat.not_lt.2 hn)
  · omega

theorem TakesUp.cond (h : TakesUp s k p) : serving s = true ∧ s.tu.phase = .issuing ∧
    s.tu.outstanding.length < Config.places ∧ s.tu.nextOrd < takeUps p :=
  ⟨h.1.1, h.1.2.1, h.2.1, h.2.2⟩

theorem TakesUp.exec_read (h : TakesUp s k p) (hr : elementReads p s.tu.nextOrd = true) :
    execTakeUp s = .next (takeUpRead s k p) := by
  simp only [execTakeUp, runningPlan_of_underGrant h.1, if_pos h.cond, hr, if_true]

theorem TakesUp.exec_fill (h : TakesUp s k p) (hr : elementReads p s.tu.nextOrd = false) (hk : p.kind = .fill) :
    execTakeUp s = .next (takeUpWrite s k p (cutTo p.dstSize p.value)) := by
  simp only [execTakeUp, runningPlan_of_underGrant h.1, if_pos h.cond, hr, hk, Bool.false_eq_true, if_false]

theorem TakesUp.exec_zero (h : TakesUp s k p) (hr : elementReads p s.tu.nextOrd = false) (hk : p.kind = .get)
    (hp : p.policy = .zero) : execTakeUp s = .next (takeUpWrite s k p 0) := by
  simp only [execTakeUp, runningPlan_of_underGrant h.1, if_pos h.cond, hr, hk, hp, Bool.false_eq_true, if_false]

theorem TakesUp.exec_hold (h : TakesUp s k p) (hr : elementReads p s.tu.nextOrd = false) (hk : p.kind = .get)
    (hp : p.policy = .hold) : execTakeUp s = .next (takeUpHold s k p) := by
  simp only [execTakeUp, runningPlan_of_underGrant h.1, if_pos h.cond, hr, hk, hp, Bool.false_eq_true, if_false]

end

/-- Settles O43: the command by the element's kind, then by the translation. -/
theorem takeUpElement : Obligations.TakeUpElement := by
  unfold Obligations.TakeUpElement
  intro s k p h seg j awaited
  have hawaited : ¬awaited ↔ lastReadOutstanding p s.tu.outstanding = false := by
    rw [← Bool.not_eq_true, lastReadOutstanding_iff]
  refine ⟨execTakeUp_of_not h, fun hlen hlt => ?_⟩
  have ht : TakesUp s k p := ⟨h, hlen, hlt⟩
  refine ⟨fun hr => ⟨fun a ha => ?_, fun st hst => ?_⟩, fun hr => ⟨fun v hv => ?_, fun hk hp => ⟨fun hw => ?_, fun hw hn => ⟨?_, ?_⟩⟩⟩⟩
  · exact (ht.exec_read hr).trans (congrArg _ (takeUpRead_of_phys hlt ha))
  · exact (ht.exec_read hr).trans (congrArg _ (takeUpRead_of_fault h.2.1 hst))
  · have hexec : execTakeUp s = .next (takeUpWrite s k p v) := by
      rcases hv with ⟨hk, rfl⟩ | ⟨hk, hp, rfl⟩ | ⟨hk, hp, hw, x, hx, rfl⟩
      · exact ht.exec_fill hr hk
      · exact ht.exec_zero hr hk hp
      · exact (ht.exec_hold hr hk hp).trans (congrArg _ (takeUpHold_of_held (hawaited.1 hw) hx))
    exact ⟨fun a ha => hexec.trans (congrArg _ (takeUpWrite_of_phys hlt ha)),
      fun st hst => hexec.trans (congrArg _ (takeUpWrite_of_fault h.2.1 hst))⟩
  · exact (ht.exec_hold hr hk hp).trans (congrArg _ (takeUpHold_of_outstanding (lastReadOutstanding_iff.2 hw)))
  · intro a ha
    exact (ht.exec_hold hr hk hp).trans
      (congrArg _ ((takeUpHold_of_none (hawaited.1 hw) hn).trans (issueFillRead_of_phys ha)))
  · intro st hst
    exact (ht.exec_hold hr hk hp).trans
      (congrArg _ ((takeUpHold_of_none (hawaited.1 hw) hn).trans (issueFillRead_of_fault h.2.1 hst)))

end Sys2Proof.Machine
end

section
set_option Elab.async false
/-!
# Holds and the answers to an element's transactions (sections 4.3, 5.2.1, 5.4 and 5.6)
-/

namespace Sys2Proof.Machine

/-! ## Which transactions are held (R66, R184) -/

section
variable {seg : Segment} {p : Plan} {out : List Elem} {e x : Elem}

theorem overlaps_iff {a b : Phys} {n m : Nat} : overlaps a n b m = true ↔ Meet a n b m := by
  simp [overlaps, Meet]

theorem elemBlocks_iff {isWrite : Bool} {a : Phys} {n : Nat} : elemBlocks seg p e isWrite a n = true ↔
    (isWrite = true ∧ (e.stage = .readHeld ∨ e.stage = .readIssued) ∧ Meet e.readAddr p.srcSize a n) ∨
    ((e.stage = .writeHeld ∨ e.stage = .writeIssued) ∧ Meet e.writeAddr p.dstSize a n) ∨
    ((e.stage = .readHeld ∨ e.stage = .readIssued) ∧ e.fill = false ∧
      ∃ b, translateAccess seg (dstAddr p e.ord) .write = .phys b ∧ Meet b p.dstSize a n) := by
  unfold elemBlocks
  cases hst : e.stage
  case readHeld => cases translateAccess seg (dstAddr p e.ord) .write <;> simp [overlaps_iff]
  case readIssued => cases translateAccess seg (dstAddr p e.ord) .write <;> simp [overlaps_iff]
  case writeHeld => simp [overlaps_iff]
  case writeIssued => simp [overlaps_iff]

theorem blocked_iff {ord n : Nat} {isWrite : Bool} {a : Phys} : blocked seg p out ord isWrite a n = true ↔
    ∃ e ∈ out, e.ord < ord ∧ elemBlocks seg p e isWrite a n = true := by
  simp [blocked, List.any_eq_true]

theorem blocked_singleton {ord n : Nat} {isWrite : Bool} {a : Phys} :
    blocked seg p [x] ord isWrite a n = true ↔ x.ord < ord ∧ elemBlocks seg p x isWrite a n = true := by
  simp [blocked]

/-- The elements that hold the transaction of `e`, one by one. -/
theorem mem_holders_iff : x ∈ holders seg p out e ↔ x ∈ out ∧ x.ord < e.ord ∧
    ((e.stage = .readHeld ∧ blocked seg p [x] e.ord false e.readAddr p.srcSize = true) ∨
     (e.stage = .writeHeld ∧ blocked seg p [x] e.ord true e.writeAddr p.dstSize = true)) := by
  simp only [blocked_singleton]
  unfold holders
  cases e.stage <;> simp [List.mem_filter]

theorem holders_nodup (h : out.Nodup) : (holders seg p out e).Nodup := by
  unfold holders
  cases e.stage
  · exact h.filter _
  · exact List.nodup_nil
  · exact h.filter _
  · exact List.nodup_nil

end

/-! ## The issue of a held transaction (R184) -/

section
variable {s : State} {k : TenantId} {p : Plan} {r : ElemRef} {e : Elem}

theorem execHeld_of_no_holder (hs : serving s = true) (hn : Names s k p r [.readHeld, .writeHeld] e)
    (hi : StillIssues s e.ord) (hh : holders (getTenant s k).segment p s.tu.outstanding e = []) :
    execHeldTransactionIssue r s = .next (releaseHeld k p s) := by
  simp only [execHeldTransactionIssue, runningPlan_of_names hn, hn.2.2, hs, stoppedFor_of_stillIssues hi, hh,
    Bool.false_eq_true, Bool.true_eq_false, or_self, if_false]

theorem execHeld_of_one_holder {x : Elem} (hs : serving s = true) (hn : Names s k p r [.readHeld, .writeHeld] e)
    (hi : StillIssues s e.ord) (hh : holders (getTenant s k).segment p s.tu.outstanding e = [x]) :
    execHeldTransactionIssue r s =
      .next (if x.stage = .writeIssued then releaseHeld k p (writeAcknowledged s k p x.ord) else s) := by
  simp only [execHeldTransactionIssue, runningPlan_of_names hn, hn.2.2, hs, stoppedFor_of_stillIssues hi, hh,
    Bool.false_eq_true, Bool.true_eq_false, or_self, if_false]

theorem execHeld_of_two_holders {x y : Elem} {rest : List Elem} (hs : serving s = true)
    (hn : Names s k p r [.readHeld, .writeHeld] e) (hi : StillIssues s e.ord)
    (hh : holders (getTenant s k).segment p s.tu.outstanding e = x :: y :: rest) :
    execHeldTransactionIssue r s = .next s := by
  simp only [execHeldTransactionIssue, runningPlan_of_names hn, hn.2.2, hs, stoppedFor_of_stillIssues hi, hh,
    Bool.false_eq_true, Bool.true_eq_false, or_self, if_false]

/-- The hold of a transaction that nothing holds has ended. -/
theorem holdEnded_of_no_holder (hn : Names s k p r [.readHeld, .writeHeld] e) (hi : StillIssues s e.ord)
    (hh : holders (getTenant s k).segment p s.tu.outstanding e = []) :
    holdEnded (getTenant s k).segment p s.tu e = true := by
  obtain ⟨_, _, hst⟩ := findElem_spec hn.2.2
  obtain ⟨hread, hwrite⟩ := holders_eq_nil_iff.1 hh
  refine holdEnded_iff.2 ⟨stoppedFor_of_stillIssues hi, ?_⟩
  rcases List.mem_pair.1 hst with h | h
  · exact .inl ⟨h, hread h⟩
  · exact .inr ⟨h, hwrite h⟩

theorem refersTo_issueHeld : refersTo r (issueHeld e) = refersTo r e := by
  unfold refersTo
  cases r <;> simp only [issueHeld_ord, issueHeld_fill]

/-- A hold that has ended is released: the element stands in its place, its transaction issued. -/
theorem exists_issued_of_holdEnded (he : e ∈ s.tu.outstanding) (hr : refersTo r e = true)
    (hh : holdEnded (getTenant s k).segment p s.tu e = true) :
    ∃ e' ∈ (releaseHeld k p s).tu.outstanding, refersTo r e' = true ∧ inFlightStage e'.stage = true :=
  ⟨issueHeld e, List.mem_map.2 ⟨e, he, if_pos hh⟩, refersTo_issueHeld.trans hr, inFlight_issueHeld e⟩

/-- A write in flight is one the acknowledgement finds. -/
theorem execElementWriteAck_of_mem (hs : serving s = true) (hg : s.tu.granted = some k) (hp : s.tu.plan = some p)
    (he : e ∈ s.tu.outstanding) (hf : e.fill = false) (hst : e.stage = .writeIssued) :
    execElementWriteAck e.ord s = .next (releaseHeld k p (writeAcknowledged s k p e.ord)) := by
  obtain ⟨e', he'⟩ : ∃ e', findElem s.tu.outstanding (.element e.ord) [.writeIssued] = some e' :=
    Option.isSome_iff_exists.1 (List.find?_isSome.2 ⟨e, he, by simp [refersTo, hf, hst]⟩)
  exact (execElementWriteAck_eq ⟨hg, hp, he'⟩).trans (congrArg _ (if_neg (engine_ne_resetting_of_serving hs)))

end

/-- Settles O44: the holders of the transaction are none, one, or more. -/
theorem heldTransactionIssued : Obligations.HeldTransactionIssued := by
  unfold Obligations.HeldTransactionIssued
  refine ⟨fun seg p out ord n isWrite a => ?_, fun seg p u e => ?_, fun s k p r e hs hn hi => ?_⟩
  · simp only [blocked_iff, elemBlocks_iff]
  · rw [holdEnded_iff, ← Bool.not_eq_true]
    refine and_congr_left fun _ => ⟨fun h => ⟨fun ha => h (stoppedFor_of_abort ha), fun hp f hf => ?_⟩, ?_⟩
    · exact Nat.not_lt.1 fun hlt => h (stoppedFor_of_fault hp hf hlt)
    · rintro ⟨ha, hf⟩ hstop
      unfold stoppedFor at hstop
      split at hstop
      · exact ha ‹_›
      next hp =>
        rcases hfault : u.faulting with _ | f
        · simp [hfault] at hstop
        · have := hf hp f hfault
          simp only [hfault, decide_eq_true_eq] at hstop
          omega
      · cases hstop
  · intro holds
    have hholds : ∀ x, holds x ↔ x ∈ holders (getTenant s k).segment p s.tu.outstanding e := fun x =>
      mem_holders_iff.symm
    obtain ⟨hmem, href, _⟩ := findElem_spec hn.2.2
    refine ⟨fun hnone => ?_, fun x hnd hone hfill => ?_, fun x y hx hy hxy => ?_⟩
    · have hh : holders (getTenant s k).segment p s.tu.outstanding e = [] :=
        List.eq_nil_iff_forall_not_mem.2 fun x hx => hnone x ((hholds x).2 hx)
      rw [← releaseHeld_eq]
      exact ⟨execHeld_of_no_holder hs hn hi hh, exists_issued_of_holdEnded hmem href (holdEnded_of_no_holder hn hi hh)⟩
    · have hh : holders (getTenant s k).segment p s.tu.outstanding e = [x] :=
        List.perm_singleton.1 ((List.perm_ext_iff_of_nodup (holders_nodup hnd) (List.nodup_singleton x)).2 fun y => by
          rw [← hholds, hone, List.mem_singleton])
      have hexec := execHeld_of_one_holder hs hn hi hh
      refine ⟨fun hst => ?_, fun hst => hexec.trans (congrArg _ (if_neg hst))⟩
      have hx : x ∈ s.tu.outstanding := ((hone x).2 rfl).1
      exact (hexec.trans (congrArg _ (if_pos hst))).trans (execElementWriteAck_of_mem hs hn.1 hn.2.1 hx hfill hst).symm
    · rcases hh : holders (getTenant s k).segment p s.tu.outstanding e with _ | ⟨a, _ | ⟨b, rest⟩⟩
      · have := (hholds x).1 hx
        rw [hh] at this
        cases this
      · have h1 := (hholds x).1 hx
        have h2 := (hholds y).1 hy
        rw [hh, List.mem_singleton] at h1 h2
        exact absurd (h1.trans h2.symm) hxy
      · exact execHeld_of_two_holders hs hn hi hh

/-! ## The acknowledged read (R54, R87, R92, R97) -/

section
variable {s : State} {k : TenantId} {p : Plan} {r : ElemRef} {e : Elem} {v : Word}

/-- The window after the element's read is acknowledged (R54). -/
def keptWindow (s : State) (k : TenantId) (p : Plan) (e : Elem) (v : Word) : Option Window :=
  if p.kind = .get ∧ (e.fill = true ∨ isLast p e.ord = true) then
    (getTenant s k).window.map fun w => { w with held := some (cutTo p.srcSize v) } else (getTenant s k).window

/-- The tenant with the held value its GET's read leaves. -/
def heldTenant (s : State) (k : TenantId) (p : Plan) (e : Elem) (v : Word) : Tenant :=
  { getTenant s k with window := keptWindow s k p e v }

theorem setTenant_heldTenant :
    (if readSetsHeld p e then setTenant s k (setHeld (getTenant s k) (some (cutTo p.srcSize v))) else s) =
      setTenant s k (heldTenant s k p e v) := by
  have hcond : readSetsHeld p e = true ↔ p.kind = .get ∧ (e.fill = true ∨ isLast p e.ord = true) := by
    simp [readSetsHeld]
  by_cases hc : readSetsHeld p e = true
  · rw [if_pos hc, heldTenant, keptWindow, if_pos (hcond.1 hc)]
    rfl
  · rw [if_neg hc, heldTenant, keptWindow, if_neg (mt hcond.2 hc)]
    exact (setTenant_getTenant s k).symm

theorem readAcknowledged_of_leaving (h : e.fill = true ∨ stoppedFor s.tu e.ord = true) :
    readAcknowledged s k p r e v = { setTenant s k (heldTenant s k p e v) with
      tu := { s.tu with outstanding := withoutElem s.tu.outstanding r } } := by
  simp only [readAcknowledged, setTenant_heldTenant]
  exact if_pos (by simpa using h)

theorem readAcknowledged_of_writing (hf : e.fill = false) (hi : StillIssues s e.ord) :
    readAcknowledged s k p r e v =
      beginWrite (setTenant s k (heldTenant s k p e v)) k p r e (elementValue p v) := by
  simp only [readAcknowledged, setTenant_heldTenant]
  exact if_neg (by simp [hf, stoppedFor_of_stillIssues hi])

theorem beginWrite_of_fault {st : Status} (hi : StillIssues s e.ord)
    (hst : translateAccess (getTenant s k).segment (dstAddr p e.ord) .write = .fault st) :
    beginWrite s k p r e v = { s with tu := (haltedUnit s.tu (withoutElem s.tu.outstanding r)
      { ord := e.ord, addr := dstAddr p e.ord, status := st, reason := .none }) } := by
  simp only [beginWrite, hst]
  rw [recordFault_of_stillIssues hi]

theorem beginWrite_of_blocked {a : Phys}
    (ha : translateAccess (getTenant s k).segment (dstAddr p e.ord) .write = .phys a)
    (hb : blocked (getTenant s k).segment p s.tu.outstanding e.ord true a p.dstSize = true) :
    beginWrite s k p r e v = { s with
      tu := { s.tu with
        outstanding := replaceElem s.tu.outstanding r { e with stage := .writeHeld, writeAddr := a, value := v } } } := by
  simp only [beginWrite, ha, hb, if_true]

theorem beginWrite_of_free {a : Phys}
    (ha : translateAccess (getTenant s k).segment (dstAddr p e.ord) .write = .phys a)
    (hb : blocked (getTenant s k).segment p s.tu.outstanding e.ord true a p.dstSize = false) :
    beginWrite s k p r e v = { setTenant s k (writeIssuedEffect p e.ord (getTenant s k)) with
      tu := { s.tu with
        outstanding := replaceElem s.tu.outstanding r { e with stage := .writeIssued, writeAddr := a, value := v } } } := by
  simp only [beginWrite, ha, hb, Bool.false_eq_true, if_false]

/-- A PUT's write to the window's last element clears the held value; a GET's read has set it (R54). -/
theorem writeIssuedEffect_heldTenant : writeIssuedEffect p e.ord (heldTenant s k p e v) = { getTenant s k with
    window := if p.kind = .put ∧ isLast p e.ord = true then
      (getTenant s k).window.map fun w => { w with held := none } else keptWindow s k p e v } := by
  unfold writeIssuedEffect
  by_cases hc : p.kind = .put ∧ isLast p e.ord = true
  · have hkept : keptWindow s k p e v = (getTenant s k).window := if_neg (by simp [hc.1])
    rw [if_pos hc, if_pos hc, heldTenant, hkept]
    rfl
  · rw [if_neg hc, if_neg hc, heldTenant]

end

/-- Settles O45: the place is freed, or the element's write begins. -/
theorem elementReadAcknowledged : Obligations.ElementReadAcknowledged := by
  unfold Obligations.ElementReadAcknowledged
  intro s k p r e v he hn kept without replaced
  have hexec : ∀ {t : State}, readAcknowledged s k p r e v = t →
      exec (.elementReadAck r v) s = .next (holdsReleased k p t) := fun ht =>
    (execElementReadAck_eq hn).trans (congrArg Host.Outcome.next ((if_neg he).trans (by rw [ht, releaseHeld_eq])))
  have hseg : (getTenant (setTenant s k (heldTenant s k p e v)) k).segment = (getTenant s k).segment := by
    rw [getTenant_setTenant_self]
    rfl
  refine ⟨fun h => hexec (readAcknowledged_of_leaving ?_), fun hf hi => ⟨fun st hst => hexec ?_, fun a ha =>
    ⟨fun hb => hexec ?_, fun hb => hexec ?_⟩⟩⟩
  · rcases h with h | h | ⟨hp, f, hf, hlt⟩
    · exact .inl h
    · exact .inr (stoppedFor_of_abort h)
    · exact .inr (stoppedFor_of_fault hp hf hlt)
  · exact (readAcknowledged_of_writing hf hi).trans (beginWrite_of_fault (by exact hi) (by rw [hseg]; exact hst))
  · exact (readAcknowledged_of_writing hf hi).trans (beginWrite_of_blocked (by rw [hseg]; exact ha) (by rw [hseg]; exact hb))
  · refine ((readAcknowledged_of_writing hf hi).trans
      (beginWrite_of_free (by rw [hseg]; exact ha) (by rw [hseg]; exact hb))).trans ?_
    rw [getTenant_setTenant_self, writeIssuedEffect_heldTenant, setTenant_setTenant]
    rfl

/-- Settles O46: the prefix grows as `endedUnit_eq` says. -/
theorem elementWriteAcknowledged : Obligations.ElementWriteAcknowledged := by
  unfold Obligations.ElementWriteAcknowledged
  intro s k p ord e he hn without step t' hdone hnew hrise hgt hw
  obtain ⟨n, rest, hle, hsplit, hrest, hunit⟩ := endedUnit_eq (u := s.tu) p hdone hnew hrise hgt hw
  have hmem : ∀ o, (o = ord ∨ o ∈ s.tu.ended) ↔ (s.tu.done ≤ o ∧ o < n) ∨ o ∈ rest := fun o => by
    rw [← mem_insertOrd, hsplit, List.mem_append, mem_ordsFrom]
  have hsorted : rest.Pairwise (· < ·) :=
    (insertOrd_pairwise hrise hnew).sublist (hsplit ▸ List.sublist_append_right _ _)
  refine ⟨n, rest, fun o h1 h2 => (hmem o).2 (.inl ⟨h1, h2⟩), hle, fun hin => ?_, fun o => ⟨fun ho => ?_, fun ⟨ho, hno⟩ => ?_⟩,
    hsorted, ?_⟩
  · rcases (hmem n).1 hin with ⟨_, hlt⟩ | hn'
    · exact lt_irrefl n hlt
    · exact lt_irrefl n (hrest n hn')
  · exact ⟨(hmem o).2 (.inr ho), (hrest o ho).le⟩
  · exact ((hmem o).1 ho).resolve_left fun ⟨_, hlt⟩ => absurd hlt (Nat.not_lt.2 hno)
  · have hstep : advanceCursor p ord (getTenant s k) = t' := by
      unfold advanceCursor
      by_cases hc : (p.kind = .put ∨ p.kind = .get) ∧ inWindow p ord = true
      · have hcursor : ∀ c, cursorStep (p.policy == .wrap) p.area c = step c := fun c => by
          simp only [cursorStep, beq_iff_eq, step]
        simp only [if_pos hc, t', hcursor]
      · simp only [if_neg hc, t']
    have hack : writeAcknowledged s k p ord = { setTenant s k t' with tu := endedUnit p ord s.tu } := by
      rw [← hstep]
      rfl
    refine (execElementWriteAck_eq hn).trans (congrArg Host.Outcome.next ((if_neg he).trans ?_))
    rw [releaseHeld_eq, hack, hunit]
    rfl

/-- Settles O47. -/
theorem elementErrorResponse : Obligations.ElementErrorResponse := by
  unfold Obligations.ElementErrorResponse
  intro s k p r e he hn without
  have hexec : ∀ {u : TransferUnit}, recordFault { s.tu with outstanding := without } (errorFault p e) = u →
      exec (.elementErrorResponse r) s = .next (releaseHeld k p { s with tu := u }) := fun hu =>
    (execElementErrorResponse_eq hn).trans (congrArg Host.Outcome.next ((if_neg he).trans (by rw [← hu]; rfl)))
  have hhalt : StillIssues s e.ord → ∀ {f : Faulting}, errorFault p e = f →
      exec (.elementErrorResponse r) s = .next (holdsReleased k p { s with tu := haltedUnit s.tu without f }) := by
    rintro hi f rfl
    rw [← releaseHeld_eq]
    exact hexec (recordFault_of_stillIssues (by rw [errorFault_ord]; exact hi) without)
  refine ⟨fun hi => ⟨fun hst => hhalt hi (if_pos hst), fun hst => hhalt hi (if_neg (by simp [hst]))⟩,
    fun f hp hf hle hall => ?_, fun ha => ?_⟩
  · rw [← releaseHeld_eq]
    refine hexec ?_
    have hlow : lowestFault { s.tu with outstanding := without } (errorFault p e) = f := by
      have hnot : ¬(errorFault p e).ord < f.ord := by rw [errorFault_ord]; omega
      simp only [lowestFault, hp, if_true, hf, lowerFault, hnot, if_false]
    have hkeep : (without.filter fun x => decide (x.ord < f.ord) || inFlightStage x.stage) = without := by
      refine List.filter_eq_self.2 fun x hx => ?_
      have hx' : x ∈ s.tu.outstanding := (List.mem_filter.1 hx).1
      by_cases hlt : x.ord < f.ord
      · simp [hlt]
      · simp [hall x hx' (Nat.not_lt.1 hlt)]
    rw [recordFault_of_not_abort (u := { s.tu with outstanding := without }) (by simp [hp]), hlow, hkeep, ← hp, ← hf]
  · refine (hexec (recordFault_of_abort (u := { s.tu with outstanding := without }) ha)).trans
      (congrArg _ (releaseHeld_of_none fun x _ => ?_))
    rw [← Bool.not_eq_true, holdEnded_iff]
    exact fun hx => by rw [stoppedFor_of_abort (by exact ha)] at hx; exact absurd hx.1 (by decide)

end Sys2Proof.Machine
end

section
set_option Elab.async false
/-!
# The drains and the map unit (sections 5.3 to 5.5 and 6.5)
-/

namespace Sys2Proof.Machine

/-! ## Drains (R89, R93, R95) -/

section
variable {s : State} {k : TenantId} {p : Plan}

theorem drained_of_underGrant {d : DrainCause} (h : UnderGrant s k p (.draining d)) (ho : s.tu.outstanding = []) :
    drained s d = some (k, p) :=
  drained_eq_some_iff.2 ⟨h.2.2.1, h.2.2.2.1, h.1, h.2.1, ho, h.2.2.2.2⟩

theorem drained_of_outstanding {d : DrainCause} (ho : s.tu.outstanding ≠ []) : drained s d = none := by
  rcases hd : drained s d with _ | ⟨k, p⟩
  · rfl
  · exact absurd (drained_eq_some_iff.1 hd).2.2.2.2.1 ho

/-- The tenant whose record finishes (R10, R52, R89). -/
def finishedTenant (s : State) (k : TenantId) (p : Plan) : Tenant :=
  { enterPosting (getTenant s k) (tenantCompletion k (getTenant s k) .ok .none false s.tu.done (s.tu.extra + excess p)
      s.tu.wraps (windowCursor (getTenant s k)) 0) with
    ackReport := some { seq := currentSeq (getTenant s k), count := s.tu.done } }

theorem endFinishDrain_eq (h : UnderGrant s k p (.draining .finish)) (ho : s.tu.outstanding = []) :
    endFinishDrain s = endGrant s k (finishedTenant s k p) := by
  simp only [endFinishDrain, drained_of_underGrant h ho]
  rfl

/-- The tenant that halts at its faulting element (R12, R13, R15, R93). -/
def haltedTenant (s : State) (k : TenantId) (p : Plan) (f : Faulting) (reason : HaltReason) : Tenant :=
  let t := haltCursor p f.ord (getTenant s k)
  let c := tenantCompletion k t f.status f.reason true f.ord s.tu.extra s.tu.wraps (windowCursor t)
    (BitVec.ofNat 32 f.addr)
  { enterHalted t reason c with
    progress := some { cause := .halted, done := f.ord, cursorAtStart := startCursor p, wraps := s.tu.wraps,
                       extra := s.tu.extra, faultAddr := some f.addr },
    ackReport := some { seq := currentSeq t, count := f.ord } }

theorem endHaltDrain_eq {f : Faulting} {reason : HaltReason} (h : UnderGrant s k p (.draining .halt))
    (ho : s.tu.outstanding = []) (hf : s.tu.faulting = some f) (hr : haltReasonOf f.status = some reason) :
    endHaltDrain s = endGrant s k (haltedTenant s k p f reason) := by
  simp only [endHaltDrain, drained_of_underGrant h ho, hf, hr]
  rfl

theorem startCursor_eq (p : Plan) : startCursor p = if p.kind = .put ∨ p.kind = .get then some p.cs else none := by
  unfold startCursor
  cases p.kind <;> rfl

theorem currentSeq_of_current {t : Tenant} {e : Entry} (h : t.current = some e) : currentSeq t = e.seq := by
  simp only [currentSeq, h]

theorem haltCursor_eq (p : Plan) (n : Nat) (t : Tenant) : haltCursor p n t = { t with
    window := if (p.kind == .put || p.kind == .get) = true then t.window.map fun w => { w with cursor := cursorAdvanced p n }
      else t.window } := by
  unfold haltCursor
  cases p.kind <;> rfl

theorem cursorAdvanced_eq (p : Plan) (n : Nat) : cursorAdvanced p n =
    if p.policy = .wrap then (if n = 0 then p.cs else (p.cs + n) % p.area) else p.cs + min n (inWindowCount p) := by
  unfold cursorAdvanced
  cases p.policy <;> rfl

theorem haltCursor_pendingMap (p : Plan) (n : Nat) (t : Tenant) : (haltCursor p n t).pendingMap = t.pendingMap := by
  rw [haltCursor_eq]

theorem execDrainPreempt_of_drained (h : UnderGrant s k p (.draining .preempt)) (ho : s.tu.outstanding = []) :
    execDrainPreempt s = .next { setTenant s k { getTenant s k with
      state := .ready,
      progress := some { cause := .preempted, done := s.tu.done, cursorAtStart := startCursor p,
                         wraps := s.tu.wraps, extra := s.tu.extra, faultAddr := none } } with tu := {} } := by
  simp only [execDrainPreempt, drained_of_underGrant h ho]

/-- Before a drain is empty its command does nothing. -/
theorem execDrains_of_outstanding (ho : s.tu.outstanding ≠ []) : execDrainFinish s = .next s ∧
    execDrainPreempt s = .next s ∧ execDrainHalt s = .next s ∧ execAbortDone s = .next s := by
  refine ⟨?_, ?_, ?_, ?_⟩
  · simp only [execDrainFinish, endFinishDrain, drained_of_outstanding ho]
  · simp only [execDrainPreempt, drained_of_outstanding ho]
  · simp only [execDrainHalt, endHaltDrain, drained_of_outstanding ho]
  · refine congrArg Host.Outcome.next ?_
    rcases s.tu.granted with _ | k
    · rfl
    · exact if_neg fun h => ho h.2.2.1

end

/-- Settles O48. -/
theorem drainFinishAndPreempt : Obligations.DrainFinishAndPreempt := by
  unfold Obligations.DrainFinishAndPreempt
  refine ⟨fun s k p e h ho hpend hc => ?_, fun s k p h ho => ?_, fun s ho => execDrains_of_outstanding ho⟩
  · refine congrArg Host.Outcome.next ((endFinishDrain_eq h ho).trans ((endGrant_of_none (by exact hpend)).trans ?_))
    rw [finishedTenant, currentSeq_of_current hc]
    rfl
  · refine (execDrainPreempt_of_drained h ho).trans ?_
    rw [startCursor_eq]

/-- Settles O49. -/
theorem drainHalt : Obligations.DrainHalt := by
  unfold Obligations.DrainHalt
  intro s k p f e reason h ho hf hr hpend hc c data window cursor stop
  have hwindow : haltCursor p f.ord (getTenant s k) = { getTenant s k with window := window } := by
    rw [haltCursor_eq, cursorAdvanced_eq]
  have hpend' : (haltedTenant s k p f reason).pendingMap = none := (haltCursor_pendingMap p f.ord _).trans hpend
  have hseq : currentSeq ({ getTenant s k with window := window } : Tenant) = e.seq := currentSeq_of_current hc
  have hstart : startCursor p = if data then some p.cs else none := by
    simp only [startCursor_eq, data, Bool.or_eq_true, beq_iff_eq]
  have hcursor : windowCursor ({ getTenant s k with window := window } : Tenant) = cursor := by
    simp only [windowCursor, cursor]
    cases window <;> rfl
  refine congrArg Host.Outcome.next ((endHaltDrain_eq h ho hf hr).trans ((endGrant_of_none hpend').trans ?_))
  simp only [haltedTenant, hwindow, hseq, hstart, hcursor]
  rfl

/-! ## The checks and the pages of a map operation (R108, R109) -/

section
variable {s : State} {k : TenantId} {c : CtlRecord}

theorem tenantOfNumber_of_bad {n : Nat} (h : n = 0 ∨ 7 < n) : tenantOfNumber n = none := by
  unfold tenantOfNumber
  split <;> simp_all

theorem tenantOfNumber_of_val {n : Nat} (h : k.val + 1 = n) : tenantOfNumber n = some k := by
  subst h
  fin_cases k <;> rfl

/-- The runs of R11. -/
theorem holdsRun_iff {t : Tenant} : holdsRun t = true ↔ t.state = .running ∨ t.state = .detaching ∨
    (t.state = .ready ∧ ∃ p, t.progress = some p ∧ p.cause = .preempted) := by
  unfold holdsRun
  cases t.state
  case ready => cases t.progress <;> simp
  all_goals simp

/-- The operation a MAP_LOAD or a MAP_CLEAR describes, when its fields pass. -/
def mapOpOf (load : Bool) (r : Record) : Option MapOp := if load then loadOp r else clearOp r

/-- The number of entries or pages it names. -/
def mapOpNumber (load : Bool) (r : Record) : Nat := if load then byteAt r 12 else halfAt r 12

/-- Its fields are out of range (R108, order 2). -/
def MapOpBad (load : Bool) (r : Record) : Prop :=
  511 < halfAt r 10 ∨ mapOpNumber load r = 0 ∨ (if load then 12 else 512) < mapOpNumber load r ∨
    512 < halfAt r 10 + mapOpNumber load r

def describedOp (load : Bool) (r : Record) : MapOp :=
  if load then .load (halfAt r 10) (loadEntries r (mapOpNumber load r)) else .clear (halfAt r 10) (mapOpNumber load r)

theorem mapOpOf_of_bad {load : Bool} {r : Record} (h : MapOpBad load r) : mapOpOf load r = none := by
  cases load <;> exact if_pos h

theorem mapOpOf_of_not_bad {load : Bool} {r : Record} (h : ¬MapOpBad load r) :
    mapOpOf load r = some (describedOp load r) := by
  cases load <;> exact if_neg h

theorem mapOpCount_describedOp (load : Bool) (r : Record) : mapOpCount (describedOp load r) = mapOpNumber load r := by
  cases load
  · rfl
  · simp [mapOpCount, describedOp, loadEntries]

/-- The pages of the operation are written, and every other page is kept (R109). -/
theorem segGet_describedOp {load : Bool} {r : Record} {seg : Segment} (h : ¬MapOpBad load r)
    (hseg : segmentWf seg = true) (q : Nat) : segGet (mapOpSegment (describedOp load r) seg) q =
      if halfAt r 10 ≤ q ∧ q < halfAt r 10 + mapOpNumber load r then
        (if load then entryOfWord (wordAt r (16 + 4 * (q - halfAt r 10))) else clearEntry)
      else segGet seg q := by
  have hfit : halfAt r 10 + mapOpNumber load r ≤ 512 := by
    simp only [MapOpBad, not_or, Nat.not_lt] at h
    exact h.2.2.2
  cases load
  · exact segGet_segClear hseg hfit
  · have hlen : (loadEntries r (mapOpNumber true r)).length = mapOpNumber true r := by simp [loadEntries]
    refine (segGet_segWrite hseg (by rw [hlen]; exact hfit)).trans ?_
    rw [hlen]
    refine if_ctx_congr Iff.rfl (fun hin => ?_) fun _ => rfl
    have hlt : q - halfAt r 10 < mapOpNumber true r := by omega
    rw [List.getD_eq_getElem _ _ (by rw [hlen]; exact hlt)]
    simp [loadEntries]

def mapInstr (load : Bool) : Instr := if load then .mapLoad else .mapClear

def mapKind (load : Bool) : Kind := if load then .mapLoad else .mapClear

theorem exec_mapInstr {load : Bool} (h : Executing s c (mapKind load)) :
    exec (mapInstr load) s = .next (carryOutMap s c (mapOpOf load c.data)) := by
  cases load
  · have hc : currentControl s .mapClear = some c := currentControl_of_executing h
    exact congrArg Host.Outcome.next (by rw [hc]; rfl)
  · have hc : currentControl s .mapLoad = some c := currentControl_of_executing h
    exact congrArg Host.Outcome.next (by rw [hc]; rfl)

theorem carryOutMap_of_badTarget {op : Option MapOp} (h : tenantOfNumber (byteAt c.data 8) = none) :
    carryOutMap s c op = controlEnded s c .invalid .badTarget 0 0 0 0 := by
  simp only [carryOutMap, h]
  rfl

theorem carryOutMap_of_none (h : tenantOfNumber (byteAt c.data 8) = some k) :
    carryOutMap s c none = controlEnded s c .invalid .badField 0 0 (getTenant s k).mapVersion 0 := by
  simp only [carryOutMap, h]
  rfl

theorem carryOutMap_of_some {op : MapOp} (h : tenantOfNumber (byteAt c.data 8) = some k) :
    carryOutMap s c (some op) = if (getTenant s k).state = .detached then controlEnded s c .wrongState .none 0 0 0 0
      else passMapOp s c k op := by
  simp only [carryOutMap, h]
  rfl

theorem passMapOp_of_run {op : MapOp} (h : holdsRun (getTenant s k) = true) : passMapOp s c k op =
    waitOnTarget (setTenant s k { getTenant s k with pendingMap := some op }) c :=
  if_pos h

theorem passMapOp_of_not_run {op : MapOp} (h : ¬holdsRun (getTenant s k) = true) : passMapOp s c k op =
    controlEnded (setTenant s k (applyMap op (getTenant s k))) c .ok .none (mapOpCount op) 0
      ((getTenant s k).mapVersion + 1) 0 :=
  if_neg h

end

/-- Settles O50: the checks in their order, then whether the target holds a run. -/
theorem mapOperations : Obligations.MapOperations := by
  unfold Obligations.MapOperations
  intro load s c h i n first num bad op run new
  have hexec : exec i s = .next (carryOutMap s c (mapOpOf load c.data)) := exec_mapInstr h
  have hop : ¬bad → mapOpOf load c.data = some (describedOp load c.data) := fun hb => mapOpOf_of_not_bad hb
  refine ⟨fun hn => hexec.trans (congrArg _ (carryOutMap_of_badTarget (tenantOfNumber_of_bad hn))), fun k hk => ?_⟩
  have htarget : tenantOfNumber (byteAt c.data 8) = some k := tenantOfNumber_of_val hk
  refine ⟨fun hb => ?_, fun hb hd => ?_, fun hb hd hr => ?_, fun hb hd hr hseg =>
    ⟨mapOpSegment (describedOp load c.data) (getTenant s k).segment, ?_, segGet_describedOp hb hseg⟩⟩
  · rw [hexec, mapOpOf_of_bad hb, carryOutMap_of_none htarget]
  · rw [hexec, hop hb, carryOutMap_of_some htarget, if_pos hd]
  · rw [hexec, hop hb, carryOutMap_of_some htarget, if_neg hd, passMapOp_of_run (holdsRun_iff.2 hr)]
    rfl
  · rw [hexec, hop hb, carryOutMap_of_some htarget, if_neg hd, passMapOp_of_not_run fun hx => hr (holdsRun_iff.1 hx),
      mapOpCount_describedOp]
    rfl

end Sys2Proof.Machine
end

section
set_option Elab.async false
/-!
# Every end of a run with a map operation pending (section 6.5, R110)

A command that ends a run computes the tenant's new context record from a tenant whose `pendingMap` plays no part, and then
hands it to `endGrant`. So the command on the state without the operation (`unmapped`) shows what it does else, and
`endGrant_of_pending` adds the operation.
-/

namespace Sys2Proof.Machine

/-- A tenant without its pending map operation. -/
def withoutMap (t : Tenant) : Tenant := { t with pendingMap := none }

/-- The state in which tenant `k` has no map operation pending. -/
def unmapped (s : State) (k : TenantId) : State := setTenant s k (withoutMap (getTenant s k))

/-- A tenant with the segment and map version of `t` after the operation, and nothing pending. -/
def mapApplied (op : MapOp) (t x : Tenant) : Tenant :=
  { x with segment := mapOpSegment op t.segment, mapVersion := t.mapVersion + 1, pendingMap := none }

/-- `t'` with the operation pending for tenant `k` of `s` applied, and the control record `c` completed (R110, R112). -/
def appliedAfter (s : State) (k : TenantId) (op : MapOp) (c : CtlRecord) (t' : State) : State :=
  controlEnded (setTenant t' k (mapApplied op (getTenant s k) (getTenant t' k))) c .ok .none (mapOpCount op) 0
    ((getTenant s k).mapVersion + 1) 1

section
variable {s : State} {k : TenantId} {p : Plan} {op : MapOp} {c : CtlRecord} {i : Instr}

theorem getTenant_unmapped (s : State) (k : TenantId) : getTenant (unmapped s k) k = withoutMap (getTenant s k) :=
  getTenant_setTenant_self s k _

/-- The tenant that a grant ends with keeps its map and the operation pending for it. -/
def KeepsMap (t x : Tenant) : Prop := x.segment = t.segment ∧ x.mapVersion = t.mapVersion ∧ x.pendingMap = t.pendingMap

/-- What `endGrant` does without the operation. -/
theorem endGrant_unmapped (s : State) (k : TenantId) (x : Tenant) :
    endGrant (unmapped s k) k (withoutMap x) = { setTenant s k (withoutMap x) with tu := {} } := by
  rw [endGrant_of_none rfl, unmapped, setTenant_setTenant]

/-- With the operation pending, `endGrant` does the same and applies it. -/
theorem endGrant_of_pending {x : Tenant} (hx : KeepsMap (getTenant s k) x) (hop : (getTenant s k).pendingMap = some op)
    (hc : s.control.current = some c) :
    endGrant s k x = appliedAfter s k op c (endGrant (unmapped s k) k (withoutMap x)) := by
  obtain ⟨hseg, hver, hpend⟩ := hx
  have hx' : getTenant (endGrant (unmapped s k) k (withoutMap x)) k = withoutMap x := by
    rw [endGrant_unmapped]
    exact getTenant_setTenant_self s k _
  have hset : ∀ y, setTenant (endGrant (unmapped s k) k (withoutMap x)) k y = { setTenant s k y with tu := {} } := by
    intro y
    have := setTenant_setTenant s k (withoutMap x) y
    rw [endGrant_unmapped, setTenant_with_tu, this]
  rw [endGrant_of_some (hpend.trans hop) hc, appliedAfter, hx', hset, mapApplied, ← hseg, ← hver]
  rfl

/-! ## The drains -/

theorem UnderGrant.unmapped {ph : Phase} (h : UnderGrant s k p ph) : UnderGrant (unmapped s k) k p ph := by
  obtain ⟨hs, hp, hg, hpl, hst⟩ := h
  exact ⟨hs, hp, hg, hpl, by rw [getTenant_unmapped]; exact hst⟩

theorem keepsMap_finishedTenant : KeepsMap (getTenant s k) (finishedTenant s k p) := ⟨rfl, rfl, rfl⟩

theorem finishedTenant_unmapped : finishedTenant (unmapped s k) k p = withoutMap (finishedTenant s k p) := by
  rw [finishedTenant, getTenant_unmapped]
  rfl

theorem keepsMap_haltedTenant {f : Faulting} {reason : HaltReason} :
    KeepsMap (getTenant s k) (haltedTenant s k p f reason) := by
  simp only [haltedTenant, haltCursor_eq]
  exact ⟨rfl, rfl, rfl⟩

theorem haltedTenant_unmapped {f : Faulting} {reason : HaltReason} :
    haltedTenant (unmapped s k) k p f reason = withoutMap (haltedTenant s k p f reason) := by
  simp only [haltedTenant, haltCursor_eq, getTenant_unmapped]
  rfl

theorem execMapPendingApply_finish (h : UnderGrant s k p (.draining .finish)) (hop : (getTenant s k).pendingMap = some op) :
    execMapPendingApply k s = .next (endFinishDrain s) := by
  have hrun : holdsRun (getTenant s k) = true := holdsRun_iff.2 (.inl h.2.2.2.2)
  simp only [execMapPendingApply, h.1, hop, hrun, h.2.1, h.2.2.1, Option.isSome_some, and_self, if_true]

theorem execMapPendingApply_halt (h : UnderGrant s k p (.draining .halt)) (hop : (getTenant s k).pendingMap = some op) :
    execMapPendingApply k s = .next (endHaltDrain s) := by
  have hrun : holdsRun (getTenant s k) = true := holdsRun_iff.2 (.inl h.2.2.2.2)
  simp only [execMapPendingApply, h.1, hop, hrun, h.2.1, h.2.2.1, Option.isSome_some, and_self, if_true]

theorem execMapPendingApply_of_none (h : (getTenant s k).pendingMap = none) : execMapPendingApply k s = .next s := by
  simp [execMapPendingApply, h]

/-! ## The first grants -/

/-- A first grant's command ends the grant alike with and without the operation, or starts the record alike. -/
def GrantOutcome (i : Instr) (s : State) (k : TenantId) : Prop :=
  (∃ x, KeepsMap (getTenant s k) x ∧ exec i s = .next (endGrant s k x) ∧
    exec i (unmapped s k) = .next (endGrant (unmapped s k) k (withoutMap x))) ∨
  ∃ p, exec i s = .next (startData s p) ∧ exec i (unmapped s k) = .next (startData (unmapped s k) p)

theorem FirstGrant.unmapped {r : Record} {kd : Kind} (h : FirstGrant s k r kd) : FirstGrant (unmapped s k) k r kd := by
  obtain ⟨hs, hph, hpl, hg, hst, hpr, hc, hk⟩ := h
  refine ⟨hs, hph, hpl, hg, ?_, ?_, ?_, hk⟩
  · rw [getTenant_unmapped]
    exact hst
  · rw [getTenant_unmapped]
    exact hpr
  · rw [getTenant_unmapped]
    exact hc

theorem grantOutcome_of_refuse {reason : Reason} (h : exec i s = .next (refuseGrant s k reason))
    (h' : exec i (unmapped s k) = .next (refuseGrant (unmapped s k) k reason)) : GrantOutcome i s k := by
  obtain ⟨_, hseg, hver, _, hpend⟩ := refuseRecord_frame k (getTenant s k) reason
  have hrefused : refuseRecord k (withoutMap (getTenant s k)) reason = withoutMap (refuseRecord k (getTenant s k) reason) := by
    unfold refuseRecord
    have hon : (withoutMap (getTenant s k)).haltOnInvalid = (getTenant s k).haltOnInvalid := rfl
    rw [hon]
    split <;> rfl
  refine .inl ⟨_, ⟨hseg, hver, hpend⟩, h, h'.trans (congrArg _ ?_)⟩
  rw [refuseGrant, getTenant_unmapped, hrefused]

theorem grantOutcome_of_finish {g : Tenant → Tenant} {aux : Word} (hg : KeepsMap (getTenant s k) (g (getTenant s k)))
    (hfree : g (withoutMap (getTenant s k)) = withoutMap (g (getTenant s k)))
    (h : exec i s = .next (finishZeroElement s k (g (getTenant s k)) aux))
    (h' : exec i (unmapped s k) = .next (finishZeroElement (unmapped s k) k (g (getTenant (unmapped s k) k)) aux)) :
    GrantOutcome i s k := by
  refine .inl ⟨enterPosting (g (getTenant s k)) (tenantCompletion k (g (getTenant s k)) .ok .none false 0 0 0
    (windowCursor (g (getTenant s k))) aux), ⟨hg.1, hg.2.1, hg.2.2⟩, h, h'.trans (congrArg _ ?_)⟩
  rw [getTenant_unmapped, hfree]
  rfl

theorem grantOutcome_surface {r : Record} (h : FirstGrant s k r .surface) : GrantOutcome .surface s k := by
  rcases hs : slotOfNumber (byteAt r 8) with _ | slot
  · exact grantOutcome_of_refuse (execSurface_of_noSlot h hs) (execSurface_of_noSlot h.unmapped hs)
  · rcases hc : surfaceCheck (surfaceOf r) with _ | reason
    · exact grantOutcome_of_finish (g := fun t => defineSurface t slot (surfaceOf r)) ⟨rfl, rfl, rfl⟩ rfl
        (execSurface_of_passed h hs hc) (execSurface_of_passed h.unmapped hs hc)
    · exact grantOutcome_of_refuse (execSurface_of_check h hs hc) (execSurface_of_check h.unmapped hs hc)

theorem surfaces_unmapped : (getTenant (unmapped s k) k).surfaces = (getTenant s k).surfaces := by
  rw [getTenant_unmapped]
  rfl

theorem windowSurface_unmapped : windowSurface (getTenant (unmapped s k) k) = windowSurface (getTenant s k) := by
  rw [getTenant_unmapped]
  rfl

theorem linearCheck_unmapped {r : Record} {put : Bool} :
    linearCheck (getTenant (unmapped s k) k) r put = linearCheck (getTenant s k) r put := by
  rw [getTenant_unmapped]
  rfl

theorem grantOutcome_window {r : Record} (h : FirstGrant s k r .window) : GrantOutcome .window s k := by
  rcases hw : windowOf r with _ | w
  · exact grantOutcome_of_refuse (execWindow_of_bad h hw) (execWindow_of_bad h.unmapped hw)
  · rcases hf : slotGet (getTenant s k).surfaces w.slot with _ | f
    · exact grantOutcome_of_refuse (execWindow_of_noSurface h hw hf)
        (execWindow_of_noSurface h.unmapped hw (by rw [surfaces_unmapped]; exact hf))
    · have h1 := execWindow_of_surface h hw hf
      have h2 := execWindow_of_surface h.unmapped hw (by rw [surfaces_unmapped]; exact hf)
      by_cases ho : f.width ≤ w.x1 ∨ f.height ≤ w.y1
      · rw [if_pos ho] at h1 h2
        exact grantOutcome_of_refuse h1 h2
      · rw [if_neg ho] at h1 h2
        exact grantOutcome_of_finish (g := fun t => { t with window := some w }) ⟨rfl, rfl, rfl⟩ rfl h1 h2

theorem grantOutcome_mark {r : Record} (h : FirstGrant s k r .mark) : GrantOutcome .mark s k :=
  grantOutcome_of_finish (g := id) ⟨rfl, rfl, rfl⟩ rfl (execMark_eq h) (execMark_eq h.unmapped)

theorem grantOutcome_probe {r : Record} (h : FirstGrant s k r .probe) : GrantOutcome .probe s k := by
  have h1 := execProbe_eq h
  have h2 := execProbe_eq h.unmapped
  have hseg : (getTenant (unmapped s k) k).segment = (getTenant s k).segment := by
    rw [getTenant_unmapped]
    rfl
  rw [hseg] at h2
  by_cases ha : 8388608 ≤ (wordAt r 8).toNat
  · rw [if_pos ha] at h1 h2
    exact grantOutcome_of_refuse h1 h2
  · rw [if_neg ha] at h1 h2
    exact grantOutcome_of_finish (g := id) ⟨rfl, rfl, rfl⟩ rfl h1 h2

theorem grantOutcome_linear_check {r : Record} {put : Bool} {reason : Reason} (h : FirstGrant s k r (linearKind put))
    (hc : linearCheck (getTenant s k) r put = some reason) : GrantOutcome (linearInstr put) s k :=
  grantOutcome_of_refuse (exec_linear_of_check h hc) (exec_linear_of_check h.unmapped (linearCheck_unmapped.trans hc))

theorem grantOutcome_get {r : Record} (h : FirstGrant s k r .get) : GrantOutcome .get s k := by
  rcases hc : linearCheck (getTenant s k) r false with _ | reason
  · obtain ⟨⟨w, f⟩, hw⟩ := Option.ne_none_iff_exists'.1 (windowSurface_of_linearCheck hc)
    exact .inr ⟨_, execGet_of_passed h hc hw,
      execGet_of_passed h.unmapped (linearCheck_unmapped.trans hc) (windowSurface_unmapped.trans hw)⟩
  · exact grantOutcome_linear_check (put := false) h hc

theorem grantOutcome_put {r : Record} (h : FirstGrant s k r .put) : GrantOutcome .put s k := by
  rcases hc : linearCheck (getTenant s k) r true with _ | reason
  · obtain ⟨⟨w, f⟩, hw⟩ := Option.ne_none_iff_exists'.1 (windowSurface_of_linearCheck hc)
    have h1 := execPut_of_passed h hc hw
    have h2 := execPut_of_passed h.unmapped (linearCheck_unmapped.trans hc) (windowSurface_unmapped.trans hw)
    by_cases h0 : takeUps (planPut r w f w.cursor) = 0
    · rw [if_pos h0] at h1 h2
      refine .inl ⟨enterPosting (getTenant s k) (tenantCompletion k (getTenant s k) .ok .none false 0
        (excess (planPut r w f w.cursor)) 0 (windowCursor (getTenant s k)) 0), ⟨rfl, rfl, rfl⟩, h1,
        h2.trans (congrArg _ ?_)⟩
      rw [getTenant_unmapped]
      rfl
    · rw [if_neg h0] at h1 h2
      exact .inr ⟨_, h1, h2⟩
  · exact grantOutcome_linear_check (put := true) h hc

theorem grantOutcome_copy {r : Record} (h : FirstGrant s k r .copy) : GrantOutcome .copy s k := by
  by_cases hb : CopyBad r
  · exact grantOutcome_of_refuse (execCopy_of_bad h hb) (execCopy_of_bad h.unmapped hb)
  · obtain ⟨a, ha⟩ := exists_slot (n := byteAt r 8) (by simp only [CopyBad] at hb; omega)
    obtain ⟨b, hb'⟩ := exists_slot (n := byteAt r 9) (by simp only [CopyBad] at hb; omega)
    obtain ⟨hnone, hsome⟩ := execCopy_of_slots h hb ha hb'
    obtain ⟨hnone', hsome'⟩ := execCopy_of_slots h.unmapped hb ha hb'
    rw [surfaces_unmapped] at hnone' hsome'
    by_cases hn : slotGet (getTenant s k).surfaces a = none ∨ slotGet (getTenant s k).surfaces b = none
    · exact grantOutcome_of_refuse (hnone hn) (hnone' hn)
    · obtain ⟨hna, hnb⟩ := not_or.1 hn
      obtain ⟨src, hsrc⟩ := Option.ne_none_iff_exists'.1 hna
      obtain ⟨dst, hdst⟩ := Option.ne_none_iff_exists'.1 hnb
      have h1 := hsome src dst hsrc hdst
      have h2 := hsome' src dst hsrc hdst
      by_cases hm : modeAdmitted (byteAt r 12) src.size dst.size = false
      · rw [if_pos hm] at h1 h2
        exact grantOutcome_of_refuse h1 h2
      · rw [if_neg hm] at h1 h2
        by_cases ho : (rectOutside src (halfAt r 16) (halfAt r 18) (halfAt r 24) (halfAt r 26) ||
            rectOutside dst (halfAt r 20) (halfAt r 22) (halfAt r 24) (halfAt r 26)) = true
        · rw [if_pos ho] at h1 h2
          exact grantOutcome_of_refuse h1 h2
        · rw [if_neg ho] at h1 h2
          exact .inr ⟨_, h1, h2⟩

theorem grantOutcome_fill {r : Record} (h : FirstGrant s k r .fill) : GrantOutcome .fill s k := by
  by_cases hb : FillBad r
  · exact grantOutcome_of_refuse (execFill_of_bad h hb) (execFill_of_bad h.unmapped hb)
  · obtain ⟨a, ha⟩ := exists_slot (n := byteAt r 8) (by simp only [FillBad] at hb; omega)
    rcases hf : slotGet (getTenant s k).surfaces a with _ | f
    · exact grantOutcome_of_refuse (execFill_of_noSurface h hb ha hf)
        (execFill_of_noSurface h.unmapped hb ha (by rw [surfaces_unmapped]; exact hf))
    · have h1 := execFill_of_surface h hb ha hf
      have h2 := execFill_of_surface h.unmapped hb ha (by rw [surfaces_unmapped]; exact hf)
      by_cases ho : rectOutside f (halfAt r 12) (halfAt r 14) (halfAt r 16) (halfAt r 18) = true
      · rw [if_pos ho] at h1 h2
        exact grantOutcome_of_refuse h1 h2
      · rw [if_neg ho] at h1 h2
        exact .inr ⟨_, h1, h2⟩

/-- The commands of a first grant, each for its kind. -/
theorem grantOutcome_of_firstGrant {r : Record} {kd : Kind}
    (hi : (i, kd) ∈ [(Instr.surface, Kind.surface), (.window, .window), (.put, .put), (.get, .get), (.copy, .copy),
      (.fill, .fill), (.mark, .mark), (.probe, .probe)]) (h : FirstGrant s k r kd) : GrantOutcome i s k := by
  simp only [List.mem_cons, Prod.mk.injEq, List.not_mem_nil, or_false] at hi
  rcases hi with ⟨rfl, rfl⟩ | ⟨rfl, rfl⟩ | ⟨rfl, rfl⟩ | ⟨rfl, rfl⟩ | ⟨rfl, rfl⟩ | ⟨rfl, rfl⟩ | ⟨rfl, rfl⟩ | ⟨rfl, rfl⟩
  · exact grantOutcome_surface h
  · exact grantOutcome_window h
  · exact grantOutcome_put h
  · exact grantOutcome_get h
  · exact grantOutcome_copy h
  · exact grantOutcome_fill h
  · exact grantOutcome_mark h
  · exact grantOutcome_probe h

end

/-- Settles O51: what ends the run hands the tenant's record to `endGrant`, which applies the operation. -/
theorem mapPendingApply : Obligations.MapPendingApply := by
  unfold Obligations.MapPendingApply
  refine ⟨?_, ?_, fun s k h => execMapPendingApply_of_none h⟩
  · intro s k p op c i d hi h ho hop hc
    rcases hi with ⟨rfl, rfl⟩ | ⟨rfl, rfl, f, reason, hf, hr⟩
    · have heq : endFinishDrain s = _ := (endFinishDrain_eq h ho).trans (endGrant_of_pending keepsMap_finishedTenant hop hc)
      refine ⟨_, congrArg Host.Outcome.next ((endFinishDrain_eq h.unmapped ho).trans
        (congrArg _ finishedTenant_unmapped)), congrArg Host.Outcome.next heq, (execMapPendingApply_finish h hop).trans (congrArg _ heq)⟩
    · have heq : endHaltDrain s = _ := (endHaltDrain_eq h ho hf hr).trans (endGrant_of_pending keepsMap_haltedTenant hop hc)
      refine ⟨_, congrArg Host.Outcome.next ((endHaltDrain_eq h.unmapped ho hf hr).trans
        (congrArg _ haltedTenant_unmapped)), congrArg Host.Outcome.next heq, (execMapPendingApply_halt h hop).trans (congrArg _ heq)⟩
  · intro s k r kd op c i hi h hop hc
    rcases grantOutcome_of_firstGrant hi h with ⟨x, hx, h1, h2⟩ | ⟨p, h1, h2⟩
    · refine ⟨_, h2, fun _ => h1.trans (congrArg _ (endGrant_of_pending hx hop hc)), fun hne => absurd ?_ hne⟩
      rw [endGrant_unmapped]
    · have hissuing : (startData (unmapped s k) p).tu.phase = .issuing := h.2.1
      refine ⟨_, h2, And.intro (fun hfree => ?_) (fun _ => h1)⟩
      rw [hissuing] at hfree
      cases hfree

end Sys2Proof.Machine
end

section
set_option Elab.async false
/-!
# Posts and recovery steps (sections 9.3, 7.4 to 7.6)
-/

namespace Sys2Proof.Machine

/-! ## What RETRY and SKIP make of a halted tenant (R124 to R128) -/

section
variable {k : TenantId} {t : Tenant}

theorem retryHalted_of_fault (h : t.haltReason = some .absent ∨ t.haltReason = some .noRead ∨ t.haltReason = some .noWrite ∨
    t.haltReason = some .busError) : retryHalted k t = { t with haltReason := none, state := .ready } := by
  rcases h with h | h | h | h <;> simp only [retryHalted, h]

theorem retryHalted_of_refetch (h : t.haltReason = some .fetchError ∨ t.haltReason = some .invalid) :
    retryHalted k t = beginRefetch t := by
  rcases h with h | h <;> simp only [retryHalted, h]

theorem retryHalted_of_postError {d : Completion} (h : t.haltReason = some .postError) (hd : t.cu.pending = some d) :
    retryHalted k t = if d.interim = true then { t with haltReason := haltReasonOf d.status }
      else { t with haltReason := none, state := .posting } := by
  simp only [retryHalted, h, hd]

theorem retried_retryHalted (k : TenantId) (t : Tenant) : Retried k t (retryHalted k t) := by
  refine ⟨retryHalted_of_fault, fun h q r hc => ?_, fun h e hc => ⟨fun hi => ?_, fun hi => ?_⟩⟩
  · rw [retryHalted_of_timeout h hc]
    exact waitEntered_startWait k { t with haltReason := none } r
  · rw [retryHalted_of_refetch h, beginRefetch_of_none hi hc]
    rfl
  · rw [retryHalted_of_refetch h, beginRefetch_of_some hi]

/-- The counts of a SKIPPED completion, as the rules name them (R128). -/
theorem skipHalted_eq (k : TenantId) (t : Tenant) : skipHalted k t = skippedTenant k t := by
  have hstop : ∀ u : Tenant, (if t.haltReason = some .fetchError then clearStop u else u) =
      { u with chan := { u.chan with
        stop := if t.haltReason = some .fetchError then u.chan.stop && queueHasFailed u.chan.queue else u.chan.stop } } := by
    intro u
    split
    · exact clearStop_eq u
    · rfl
  unfold skipHalted
  simp only [hstop]
  unfold skippedTenant skippedCounts
  rcases hr : t.haltReason with _ | r
  · rfl
  · cases r <;> rcases hp : t.progress with _ | p <;> rfl

theorem recoverAfterPost_of_none (h : t.recovery = none) : recoverAfterPost k t = t :=
  recoverAfterPost_of_not (by simp [h]) (by simp [h])

end

/-! ## The issue of a post (R144, R147) -/

section
variable {s : State} {k : TenantId}

theorem isDataCompletion_iff {c : Completion} :
    isDataCompletion c = true ↔ 3 ≤ c.kind.toNat ∧ c.kind.toNat ≤ 6 := by
  constructor
  · intro h
    unfold isDataCompletion at h
    split at h
    case h_5 => cases h
    all_goals
      next hk =>
        have hmem := kindOfCode_eq_some_iff.1 hk
        simp at hmem
        omega
  · rintro ⟨hlo, hhi⟩
    have hcode : c.kind.toNat = 3 ∨ c.kind.toNat = 4 ∨ c.kind.toNat = 5 ∨ c.kind.toNat = 6 := by omega
    rcases hcode with h | h | h | h <;> simp only [isDataCompletion, h, kindOfCode]

/-- A post is covered when its completion is no data record's, or counts no element, or the report counts as many (R147). -/
theorem reportCovers_iff {r : Option AckReport} {c : Completion} : reportCovers r c = true ↔
    c.kind.toNat < 3 ∨ 6 < c.kind.toNat ∨ c.elements = 0 ∨ ∃ a, r = some a ∧ a.seq = c.seq ∧ c.elements ≤ a.count := by
  have hdata : (!isDataCompletion c) = true ↔ c.kind.toNat < 3 ∨ 6 < c.kind.toNat := by
    rw [Bool.not_eq_true', ← Bool.not_eq_true, isDataCompletion_iff]
    omega
  unfold reportCovers
  rw [Bool.or_eq_true, Bool.or_eq_true, hdata, beq_iff_eq]
  rcases r with _ | a <;> simp [or_assoc]

theorem tryPostTenant_of_ready {t : Tenant} {c : Completion} (hp : t.cu.pending = some c) (hpost : t.cu.post = none)
    (hroom : unconsumed t.cu < ringSlots t.cqCode) (ha : attached t = true) (hr : t.haltReason ≠ some .postError)
    (hcov : reportCovers t.ackReport c = true) :
    tryPostTenant t = { t with cu := issuePost t.cu t.cqBase t.cqCode c } := by
  simp only [tryPostTenant, hp]
  exact if_pos ⟨hpost, hroom, ha, hr, hcov⟩

theorem tryPostTenant_of_not {t : Tenant} {c : Completion} (hp : t.cu.pending = some c)
    (h : t.cu.post ≠ none ∨ ¬unconsumed t.cu < ringSlots t.cqCode ∨ attached t = false ∨
      t.haltReason = some .postError ∨ ¬reportCovers t.ackReport c = true) : tryPostTenant t = t := by
  rcases tryPostTenant_cases t with he | ⟨c', hc', hpost, hroom, ha, hr, hcov, _⟩
  · exact he
  · cases hp.symm.trans hc'
    rcases h with h | h | h | h | h
    · exact absurd hpost h
    · exact absurd hroom h
    · rw [ha] at h; cases h
    · exact absurd h hr
    · exact absurd hcov h

theorem execPostIssue_tenant (hs : serving s = true) :
    execPostIssue (.tenant k) s = .next (setTenant s k (tryPostTenant (getTenant s k))) := by
  simp only [execPostIssue, hs, if_true]

theorem execPostIssue_control (hs : serving s = true) :
    execPostIssue .control s = .next { s with control := tryPostControl s.control } := by
  simp only [execPostIssue, hs, if_true]

end

/-- Settles O52. -/
theorem postIssued : Obligations.PostIssued := by
  unfold Obligations.PostIssued
  refine ⟨fun s k c hs hp => ?_, fun s c hs hp => ?_, fun s c hs => congrArg Host.Outcome.next (by simp [hs])⟩
  · intro covered room slot post
    refine ⟨fun hpost hroom ha hr hcov => (execPostIssue_tenant hs).trans ?_, fun h => (execPostIssue_tenant hs).trans ?_⟩
    · rw [tryPostTenant_of_ready hp hpost hroom ha hr (reportCovers_iff.2 hcov)]
      rfl
    · have hcov : ¬covered ↔ ¬reportCovers (getTenant s k).ackReport c = true := not_congr reportCovers_iff.symm
      rw [hcov] at h
      rw [tryPostTenant_of_not hp h, setTenant_getTenant]
  · intro room slot post
    refine ⟨fun hpost hroom hstop => (execPostIssue_control hs).trans ?_, fun h => (execPostIssue_control hs).trans ?_⟩
    · rw [tryPostControl_of_ready hp hpost hroom hstop]
      rfl
    · rw [tryPostControl_of_not]
      rcases h with h | h | h
      · exact .inr (.inl h)
      · exact .inr (.inr (.inl (Nat.not_lt.1 h)))
      · exact .inr (.inr (.inr h))

/-! ## The answers to a post (R145, R148) -/

section
variable {s : State} {k : TenantId} {c : Completion}

/-- The post's acknowledgement outside a soft reset. -/
theorem execPostAck_tenant (he : s.engine ≠ .resetting) (hc : PostOutstanding (getTenant s k).cu c) {t : Tenant}
    (ht : ackTenantPost k (getTenant s k) c = t) : exec (.postAck (.tenant k)) s = .next (setTenant s k t) :=
  congrArg Host.Outcome.next ((tenantPostAcked_of_outstanding hc).trans ((if_neg he).trans (congrArg _ ht)))

/-- RECOVERY_AFTER_POST is the acknowledgement of a post whose tenant has a step to carry out (R123). -/
theorem execRecoveryAfterPost_eq (hs : (getTenant s k).state = .halted)
    (hr : (getTenant s k).recovery = some .retryAfterPost ∨ (getTenant s k).recovery = some .skipAfterPost) :
    exec (.recoveryAfterPost k) s = exec (.postAck (.tenant k)) s :=
  congrArg Host.Outcome.next (if_pos ⟨hs, hr⟩)

theorem execPostAck_control {t : State} (he : s.engine ≠ .resetting) (hc : PostOutstanding s.control.cu c)
    (ht : takeControl { s with control := { s.control with
      current := none, cu := postedUnit s.control.cu s.control.cqCode c } } = t) :
    exec (.postAck .control) s = .next t :=
  (execPostAck_control_of_outstanding hc).trans (congrArg Host.Outcome.next ((if_neg he).trans ht))

end

/-- Settles O53: the record boundary by the queue, the recovery step by its kind, the control record by its entry. -/
theorem postAcknowledged : Obligations.PostAcknowledged := by
  unfold Obligations.PostAcknowledged
  refine ⟨fun s k c he hc => ⟨fun hst => ⟨fun e rest hq => ?_, fun hq => ?_⟩, fun hst => ?_⟩, fun s c he hc => ?_⟩
  · have hb := recordBoundary_of_cons (k := k) (t := postedTenant (getTenant s k) c) hq
    exact ⟨_, execPostAck_tenant he hc ((ackTenantPost_of_posting hst).trans hb), takenAs_admitCurrent k _⟩
  · have hb := recordBoundary_of_nil (k := k) (t := postedTenant (getTenant s k) c) hq
    exact execPostAck_tenant he hc ((ackTenantPost_of_posting hst).trans hb)
  · have hack : ∀ {t}, recoverAfterPost k (postedTenant (getTenant s k) c) = t →
        exec (.postAck (.tenant k)) s = .next (setTenant s k t) := fun ht =>
      execPostAck_tenant he hc ((ackTenantPost_of_halted hst).trans ht)
    refine ⟨fun hr => hack (recoverAfterPost_of_none hr), fun hr _ => ?_, fun hr => ?_⟩
    · have h := hack (recoverAfterPost_retry (t := postedTenant (getTenant s k) c) hr)
      exact ⟨_, retried_retryHalted k _, h, (execRecoveryAfterPost_eq hst (.inl hr)).trans h⟩
    · have h := hack ((recoverAfterPost_skip (t := postedTenant (getTenant s k) c) hr).trans (skipHalted_eq k _))
      exact ⟨h, (execRecoveryAfterPost_eq hst (.inr hr)).trans h⟩
  · intro s0
    refine ⟨fun h => execPostAck_control he hc (takeControl_of_not ?_), fun hon e hent => ?_⟩
    · rcases h with h | h
      · exact .inl h
      · exact .inr (.inr h)
    · have htaken := execPostAck_control he hc (takeControl_of_entry (s := s0) hon rfl hent)
      intro s1 next
      refine ⟨fun hk => ?_, fun kd hk => ⟨fun hkd => ?_, fun hkd => ?_⟩⟩
      · rw [htaken, pendingTaken_of_unknown hk]
        rfl
      · rw [htaken, pendingTaken_of_tenant hk hkd]
        rfl
      · rw [htaken, pendingTaken_of_control hk hkd]
        rfl

theorem failTenantPost_of_reporting {t : Tenant} (h : t.state = .posting ∨ t.state = .halted) :
    failTenantPost t = { t with
      state := .halted, haltReason := some .postError, recovery := none,
      cu := { t.cu with post := none, alert := some .post } } := by
  rw [failTenantPost, if_pos h, recordAlert_post]

/-- Settles O54. -/
theorem postError : Obligations.PostError := by
  unfold Obligations.PostError
  refine ⟨fun s k c he hc hst => (execPostError_tenant_of_outstanding hc).trans (congrArg Host.Outcome.next ?_),
    fun s c he hc => (execPostError_control_of_outstanding hc).trans (congrArg Host.Outcome.next ?_)⟩
  · rw [if_neg he, failTenantPost_of_reporting hst]
  · have hne : s.engine ≠ .resetting := by rcases he with h | h <;> simp [h]
    have hstop : (if s.engine = .on then Engine.ctlStopped else s.engine) = .ctlStopped := by
      rcases he with h | h <;> simp [h]
    rw [if_neg hne, failControlPost, hstop, recordAlert_post]

end Sys2Proof.Machine
end

section
set_option Elab.async false
/-!
# Control records (sections 10.3 to 10.8 and 7.4)
-/

namespace Sys2Proof.Machine

section
variable {s : State} {c : CtlRecord} {k : TenantId}

/-! ## ATTACH (R166, R167) and SET_SERVICE (R173) -/

theorem serviceBad_iff {w th ho : Nat} :
    serviceBad w th ho = true ↔ w = 0 ∨ 8 < w ∨ th = 0 ∨ 32 < th ∨ 4095 < ho := by
  simp [serviceBad, or_assoc]

/-- Order 2 of the checks of an ATTACH (R166). -/
def AttachBad (r : Record) : Prop :=
  6 < byteAt r 9 ∨ 6 < byteAt r 10 ∨ byteAt r 11 = 0 ∨ 8 < byteAt r 11 ∨ byteAt r 12 = 0 ∨ 32 < byteAt r 12 ∨
    4095 < halfAt r 14 ∨ 2 ^ 40 ≤ longAt r 16 ∨ 2 ^ 40 ≤ longAt r 24

/-- Order 3 of the checks of an ATTACH (R166). -/
def AttachUnaligned (r : Record) : Prop := longAt r 16 % 64 ≠ 0 ∨ longAt r 24 % 32 ≠ 0

theorem attachBad_iff {r : Record} : (6 < byteAt r 9 ∨ 6 < byteAt r 10 ∨
    serviceBad (byteAt r 11) (byteAt r 12) (halfAt r 14) = true ∨ 2 ^ 40 ≤ longAt r 16 ∨ 2 ^ 40 ≤ longAt r 24) ↔
    AttachBad r := by
  rw [serviceBad_iff, AttachBad]
  simp only [or_assoc]

theorem attachCheck_of_bad {r : Record} (h : AttachBad r) : attachCheck r = some .badField := if_pos (attachBad_iff.2 h)

theorem attachCheck_of_unaligned {r : Record} (h : ¬AttachBad r) (ha : AttachUnaligned r) : attachCheck r = some .align :=
  (if_neg fun hb => h (attachBad_iff.1 hb)).trans (if_pos ha)

theorem attachCheck_of_passed {r : Record} (h : ¬AttachBad r) (ha : ¬AttachUnaligned r) : attachCheck r = none :=
  (if_neg fun hb => h (attachBad_iff.1 hb)).trans (if_neg ha)

theorem execAttach_of_badTarget (h : Executing s c .attach) (hk : tenantOfNumber (byteAt c.data 8) = none) :
    execAttach s = .next (controlEnded s c .invalid .badTarget 0 0 0 0) := by
  simp only [execAttach, currentControl_of_executing h, hk]
  rfl

theorem execAttach_of_check {reason : Reason} (h : Executing s c .attach) (hk : tenantOfNumber (byteAt c.data 8) = some k)
    (hc : attachCheck c.data = some reason) :
    execAttach s = .next (controlEnded s c .invalid reason 0 0 (getTenant s k).mapVersion 0) := by
  simp only [execAttach, currentControl_of_executing h, hk, hc]
  rfl

theorem execAttach_of_passed (h : Executing s c .attach) (hk : tenantOfNumber (byteAt c.data 8) = some k)
    (hc : attachCheck c.data = none) : execAttach s = .next (if (getTenant s k).state ≠ .detached
      then controlEnded s c .wrongState .none 0 0 (getTenant s k).mapVersion 0
      else controlEnded (setTenant s k (attachTenant c.data (getTenant s k))) c .ok .none 0 0 0 0) := by
  simp only [execAttach, currentControl_of_executing h, hk, hc]
  rfl

theorem execSetService_of_badTarget (h : Executing s c .setService) (hk : tenantOfNumber (byteAt c.data 8) = none) :
    execSetService s = .next (controlEnded s c .invalid .badTarget 0 0 0 0) := by
  simp only [execSetService, currentControl_of_executing h, hk]
  rfl

theorem execSetService_of_target (h : Executing s c .setService) (hk : tenantOfNumber (byteAt c.data 8) = some k) :
    execSetService s = .next (
      if serviceBad (byteAt c.data 9) (byteAt c.data 10) (halfAt c.data 12) = true then
        controlEnded s c .invalid .badField 0 0 (getTenant s k).mapVersion 0
      else if (getTenant s k).state = .detached then
        controlEnded s c .wrongState .none 0 0 (getTenant s k).mapVersion 0
      else controlEnded (setTenant s k { getTenant s k with
        weight := byteAt c.data 9, threshold := byteAt c.data 10, holdoff := halfAt c.data 12 })
        c .ok .none 0 0 (getTenant s k).mapVersion 0) := by
  simp only [execSetService, currentControl_of_executing h, hk]
  rfl

theorem execNote_of_executing (h : Executing s c .note) : execNote s = .next (controlEnded s c .ok .none 0 0 0 0) := by
  simp only [execNote, currentControl_of_executing h]
  rfl

/-! ## DETACH and the end of an abort (R97, R168 to R170) -/

theorem execDetach_of_badTarget (h : Executing s c .detach) (hk : tenantOfNumber (byteAt c.data 8) = none) :
    execDetach s = .next (controlEnded s c .invalid .badTarget 0 0 0 0) := by
  simp only [execDetach, currentControl_of_executing h, hk]
  rfl

theorem execDetach_of_detached (h : Executing s c .detach) (hk : tenantOfNumber (byteAt c.data 8) = some k)
    (hs : (getTenant s k).state = .detached) :
    execDetach s = .next (controlEnded s c .wrongState .none 0 0 (getTenant s k).mapVersion 0) := by
  simp only [execDetach, currentControl_of_executing h, hk, hs]
  rfl

theorem execDetach_of_running (h : Executing s c .detach) (hk : tenantOfNumber (byteAt c.data 8) = some k)
    (hs : (getTenant s k).state = .running) : execDetach s = .next (detachRunning s c k) := by
  simp only [execDetach, currentControl_of_executing h, hk, hs]

/-- A target with no run is detached in the step of the check (R168, R170). -/
theorem execDetach_at_once (h : Executing s c .detach) (hk : tenantOfNumber (byteAt c.data 8) = some k)
    (hd : (getTenant s k).state ≠ .detached) (hr : (getTenant s k).state ≠ .running)
    (ha : (getTenant s k).state ≠ .detaching) : execDetach s = .next (detachAtOnce s c k) := by
  simp only [execDetach, currentControl_of_executing h, hk]
  rcases hs : (getTenant s k).state
  case detached => exact absurd hs hd
  case running => exact absurd hs hr
  case detaching => exact absurd hs ha
  all_goals rfl

/-- A target with its detach begun is as a target detached at once. -/
theorem detachedAfter_beginDetaching (t : Tenant) : detachedAfter (beginDetaching t) = detachedAfter t := by
  have hread : ∀ r : Option FetchRead, markRead (markRead r) = markRead r := fun r => by cases r <;> rfl
  have hpost : ∀ p : Option Post, markPost (markPost p) = markPost p := fun p => by cases p <;> rfl
  change detachTenant (beginDetaching t) = detachTenant t
  unfold detachTenant beginDetaching
  simp only [hread, hpost]

/-- The end of an abort (R97, R20). -/
theorem finishAbort_of_current (hc : s.control.current = some c) : finishAbort s k =
    controlEnded { setTenant s k (detachedAfter (getTenant s k)) with tu := {} } c .ok .none 0
      s.control.discardCount 0 3 := by
  have hc' : (setTenant s k (detachTenant (getTenant s k))).control.current = some c := hc
  simp only [finishAbort, hc']
  rfl

/-- The part after DETACH has begun the abort of its RUNNING target (R97, R169). -/
def detachBegun (s : State) (c : CtlRecord) (k : TenantId) : State :=
  { setTenant s k (beginDetaching (getTenant s k)) with
    control := { s.control with
      current := some { c with op := .waitingTarget }, discardCount := discardCountOf (getTenant s k) },
    tu := beginAbort s.tu }

theorem detachRunning_eq (s : State) (c : CtlRecord) (k : TenantId) : detachRunning s c k =
    if s.tu.outstanding.filter (fun e => inFlightStage e.stage) = [] then finishAbort (detachBegun s c k) k
      else detachBegun s c k := rfl

/-- With nothing in flight the abort ends in the step that begins it (R97). -/
theorem finishAbort_detachBegun (s : State) (c : CtlRecord) (k : TenantId) : finishAbort (detachBegun s c k) k =
    controlEnded
      { setTenant s k (detachedAfter (getTenant s k)) with
        tu := {}, control := { s.control with discardCount := discardCountOf (getTenant s k) } } c .ok .none 0
      (discardCountOf (getTenant s k)) 0 3 := by
  have hget : getTenant (detachBegun s c k) k = beginDetaching (getTenant s k) := getTenant_setTenant_self s k _
  have hset : setTenant (detachBegun s c k) k (detachedAfter (getTenant s k)) =
      { setTenant s k (detachedAfter (getTenant s k)) with
        control := (detachBegun s c k).control, tu := beginAbort s.tu } := by
    rw [← setTenant_setTenant s k (beginDetaching (getTenant s k)) (detachedAfter (getTenant s k))]
    rfl
  rw [finishAbort_of_current (c := { c with op := .waitingTarget }) rfl, hget, detachedAfter_beginDetaching, hset]
  rfl

/-! ## DRAIN (R171, R172) -/

theorem execDrain_of_badTarget (h : Executing s c .drain) (hk : tenantOfNumber (byteAt c.data 8) = none) :
    execDrain s = .next (controlEnded s c .invalid .badTarget 0 0 0 0) := by
  simp only [execDrain, currentControl_of_executing h, hk]
  rfl

/-- The checked DRAIN: it ends when its target is PAUSED or HALTED, and else waits on it (R171). -/
theorem execDrain_of_target (h : Executing s c .drain) (hk : tenantOfNumber (byteAt c.data 8) = some k) :
    execDrain s = .next (
      if (getTenant s k).state = .detached then controlEnded s c .wrongState .none 0 0 (getTenant s k).mapVersion 0
      else if (drainTenant (getTenant s k)).state = .paused ∨ (drainTenant (getTenant s k)).state = .halted then
        completeControl (setTenant s k (drainTenant (getTenant s k))) c
          (drainCompletion c (drainTenant (getTenant s k)))
      else waitOnTarget (setTenant s k (drainTenant (getTenant s k))) c) := by
  simp only [execDrain, currentControl_of_executing h, hk]
  rfl

theorem drainTenant_of_pauses {t : Tenant} (h : t.state = .idle ∧ t.chan.inFlight = none) :
    drainTenant t = { t with drainRequested := true, state := .paused } := if_pos h

theorem drainTenant_of_not {t : Tenant} (h : ¬(t.state = .idle ∧ t.chan.inFlight = none)) :
    drainTenant t = { t with drainRequested := true } := if_neg h

theorem drainCompletion_of_paused {t : Tenant} (h : t.state = .paused) (s : State) (c : CtlRecord) :
    completeControl s c (drainCompletion c t) = controlEnded s c .ok .none 0 0 t.mapVersion 7 := by
  simp only [drainCompletion, h]
  rfl

theorem drainCompletion_of_halted {t : Tenant} (h : t.state = .halted) (s : State) (c : CtlRecord) :
    completeControl s c (drainCompletion c t) = controlEnded s c .haltedTarget .none 0 0 t.mapVersion 6 := by
  simp only [drainCompletion, h]
  rfl

/-- The state in which a waiting DRAIN ends, or goes on waiting (R172). -/
theorem execDrainEnd_of_waiting (hs : serving s = true) (hc : s.control.current = some c) (hop : c.op = .waitingTarget)
    (hkd : kindOf c.data = some .drain) (hk : tenantOfNumber (byteAt c.data 8) = some k) :
    execDrainEnd s = .next (if (getTenant s k).state = .paused ∨ (getTenant s k).state = .halted then
      completeControl s c (drainCompletion c (getTenant s k)) else s) := by
  simp only [execDrainEnd, hc, hs, hop, hkd, hk, and_self, if_true]

/-! ## RESUME (R122 to R129) -/

/-- The RESUME command of a mode. -/
def resumeInstr (skip : Bool) : Instr := if skip then .resumeSkip else .resumeRetry

theorem exec_resume {skip : Bool} (h : Executing s c .resume)
    (hm : byteAt c.data 9 = (if skip then 1 else 0) ∨ 1 < byteAt c.data 9) :
    exec (resumeInstr skip) s = .next (carryOutResume s c skip) := by
  cases skip
  · have hmode : byteAt c.data 9 ≠ resumeSkipCode := by
      simp only [Bool.false_eq_true, if_false, resumeSkipCode] at hm ⊢
      omega
    change execResumeRetry s = _
    simp only [execResumeRetry, currentControl_of_executing h]
    rw [if_neg hmode]
  · have hmode : byteAt c.data 9 ≠ resumeRetryCode := by
      simp only [if_true, resumeRetryCode] at hm ⊢
      omega
    change execResumeSkip s = _
    simp only [execResumeSkip, currentControl_of_executing h]
    rw [if_neg hmode]

theorem carryOutResume_of_badTarget {skip : Bool} (hk : tenantOfNumber (byteAt c.data 8) = none) :
    carryOutResume s c skip = controlEnded s c .invalid .badTarget 0 0 0 0 := by
  simp only [carryOutResume, hk]
  rfl

theorem carryOutResume_of_target {skip : Bool} (hk : tenantOfNumber (byteAt c.data 8) = some k) :
    carryOutResume s c skip = if 1 < byteAt c.data 9 then
        controlEnded s c .invalid .badField 0 0 (getTenant s k).mapVersion 0
      else if resumeRefused (getTenant s k) skip = true then
        controlEnded s c .wrongState .none 0 0 (getTenant s k).mapVersion 0
      else controlEnded (setTenant s k (resumeTenant k (getTenant s k) skip)) c .ok .none 0 0
        (getTenant s k).mapVersion 0 := by
  simp only [carryOutResume, hk]
  rfl

/-- Order 3 of the checks of a RESUME (R122). -/
theorem resumeRefused_iff {t : Tenant} {skip : Bool} : resumeRefused t skip = true ↔
    (t.state ≠ .halted ∧ t.state ≠ .paused) ∨ (t.state = .halted ∧ t.recovery ≠ none) ∨
      (t.state = .halted ∧ t.haltReason = some .postError ∧ skip = true) := by
  simp [resumeRefused, Option.isSome_iff_ne_none, or_assoc, and_assoc]

theorem resumeTenant_of_paused {t : Tenant} {skip : Bool} (h : t.state = .paused) :
    resumeTenant k t skip = { t with drainRequested := false, state := .idle } := if_pos h

/-- The interim completion is still to be posted: the mode's step is kept for its posted report (R123). -/
theorem resumeTenant_of_pending {t : Tenant} {skip : Bool} (h : t.state = .halted) (hr : t.haltReason ≠ some .postError)
    (hp : t.cu.pending ≠ none) :
    resumeTenant k t skip = { t with recovery := some (if skip then .skipAfterPost else .retryAfterPost) } :=
  (if_neg (by simp [h])).trans (if_pos ⟨Option.isSome_iff_ne_none.2 hp, hr⟩)

theorem resumeTenant_of_posted {t : Tenant} {skip : Bool} (h : t.state = .halted)
    (hp : t.cu.pending = none ∨ t.haltReason = some .postError) :
    resumeTenant k t skip = if skip = true then skipHalted k t else retryHalted k t := by
  refine (if_neg (by simp [h])).trans (if_neg ?_)
  rintro ⟨hsome, hr⟩
  rcases hp with hp | hp
  · rw [hp] at hsome; cases hsome
  · exact hr hp

end

/-- Settles O55. -/
theorem attachRecord : Obligations.AttachRecord := by
  unfold Obligations.AttachRecord
  intro s c h r bad unaligned
  refine ⟨fun hn => execAttach_of_badTarget h (tenantOfNumber_of_bad hn), fun k hk => ?_⟩
  have htarget : tenantOfNumber (byteAt c.data 8) = some k := tenantOfNumber_of_val hk
  refine ⟨fun hb => execAttach_of_check h htarget (attachCheck_of_bad hb),
    fun hb ha => execAttach_of_check h htarget (attachCheck_of_unaligned hb ha), fun hb ha hs => ?_, fun hb ha hs => ?_⟩
  · exact (execAttach_of_passed h htarget (attachCheck_of_passed hb ha)).trans (congrArg Host.Outcome.next (if_pos hs))
  · refine (execAttach_of_passed h htarget (attachCheck_of_passed hb ha)).trans (congrArg Host.Outcome.next ?_)
    rw [if_neg (not_not.2 hs)]
    rfl

/-- Settles O56: the target's state selects the refusal, the detach at once or the abort. -/
theorem detachRecord : Obligations.DetachRecord := by
  unfold Obligations.DetachRecord
  refine ⟨fun s c h => ⟨fun hn => execDetach_of_badTarget h (tenantOfNumber_of_bad hn), fun k hk => ?_⟩,
    fun s k c hs hg hph ho hst hc => ?_⟩
  · intro count inFlight
    have htarget : tenantOfNumber (byteAt c.data 8) = some k := tenantOfNumber_of_val hk
    refine ⟨execDetach_of_detached h htarget, fun hd hr ha => execDetach_at_once h htarget hd hr ha,
      fun hs hin => ?_, fun hs hin => ?_⟩
    · exact (execDetach_of_running h htarget hs).trans (congrArg Host.Outcome.next ((detachRunning_eq s c k).trans (if_neg hin)))
    · exact (execDetach_of_running h htarget hs).trans
        (congrArg Host.Outcome.next ((detachRunning_eq s c k).trans ((if_pos hin).trans (finishAbort_detachBegun s c k))))
  · have habort : exec .abortDone s = .next (finishAbort s k) := by
      change execAbortDone s = _
      simp only [execAbortDone, hg, hs, hph, ho, hst, and_self, if_true]
    rw [habort, finishAbort_of_current hc]

/-- Settles O57: the DRAIN by its target's state, and its end by the state found. -/
theorem drainRecordAndEnd : Obligations.DrainRecordAndEnd := by
  unfold Obligations.DrainRecordAndEnd
  refine ⟨fun s c h => ⟨fun hn => execDrain_of_badTarget h (tenantOfNumber_of_bad hn), fun k hk => ?_⟩,
    fun s c k hs hc hop hkd hk => ?_⟩
  · intro t v
    have hexec := execDrain_of_target h (tenantOfNumber_of_val hk)
    have hset : (getTenant s k).state ≠ .idle → drainTenant (getTenant s k) = t := fun hs =>
      drainTenant_of_not fun hi => hs hi.1
    refine ⟨fun hs => hexec.trans (congrArg Host.Outcome.next (if_pos hs)), fun hs => ?_, fun hs => ?_,
      fun hd hh hp hi => ?_⟩
    · have hhalted : t.state = .halted := hs
      rw [show exec .drain s = _ from hexec, if_neg (by simp [hs]), hset (by simp [hs]), if_pos (.inr hhalted),
        drainCompletion_of_halted hhalted]
    · have hpaused : drainTenant (getTenant s k) = { t with state := .paused } := by
        rcases hs with hs | hs
        · rw [hset (by simp [hs])]
          exact (with_state_self (t := t) hs).symm
        · exact drainTenant_of_pauses hs
      have hd : (getTenant s k).state ≠ .detached := by rcases hs with hs | ⟨hs, _⟩ <;> simp [hs]
      rw [show exec .drain s = _ from hexec, if_neg hd, hpaused, if_pos (.inl rfl), drainCompletion_of_paused rfl]
    · have hwait : drainTenant (getTenant s k) = t := drainTenant_of_not fun h => hi h.1 h.2
      have hnot : ¬(t.state = .paused ∨ t.state = .halted) := not_or.2 ⟨hp, hh⟩
      rw [show exec .drain s = _ from hexec, if_neg hd, hwait, if_neg hnot]
      rfl
  · have hexec := execDrainEnd_of_waiting hs hc hop hkd (tenantOfNumber_of_val hk)
    refine ⟨fun hst => ?_, fun hst => ?_, fun hp hh => hexec.trans (congrArg Host.Outcome.next (if_neg (not_or.2 ⟨hp, hh⟩)))⟩
    · exact hexec.trans (congrArg Host.Outcome.next ((if_pos (.inl hst)).trans (drainCompletion_of_paused hst s c)))
    · exact hexec.trans (congrArg Host.Outcome.next ((if_pos (.inr hst)).trans (drainCompletion_of_halted hst s c)))

/-- Settles O58: the checks, then the target as its state, halt reason and pending completion select. -/
theorem resumeRecords : Obligations.ResumeRecords := by
  unfold Obligations.ResumeRecords
  intro skip s c h i mode hm
  have hexec : exec i s = .next (carryOutResume s c skip) := exec_resume h hm
  refine ⟨fun hn => hexec.trans (congrArg _ (carryOutResume_of_badTarget (tenantOfNumber_of_bad hn))), fun k hk => ?_⟩
  have hcarry := carryOutResume_of_target (s := s) (skip := skip) (tenantOfNumber_of_val hk)
  intro v wrong
  have hwrong : wrong ↔ resumeRefused (getTenant s k) skip = true := resumeRefused_iff.symm
  have hended : ∀ {t : Tenant}, mode ≤ 1 → ¬wrong → resumeTenant k (getTenant s k) skip = t →
      exec i s = .next (controlEnded (setTenant s k t) c .ok .none 0 0 v 0) := by
    intro t hm1 hw ht
    rw [hexec, hcarry, if_neg (Nat.not_lt.2 hm1), if_neg (fun hr => hw (hwrong.2 hr)), ht]
  refine ⟨fun hm1 => ?_, fun hm1 hw => ?_, fun hm1 hs => ?_, fun hm1 hw hs => ⟨fun hr hp => ?_, fun hr hp => ⟨?_, ?_⟩,
    fun hr d hd => ?_⟩⟩
  · rw [hexec, hcarry, if_pos hm1]
  · rw [hexec, hcarry, if_neg (Nat.not_lt.2 hm1), if_pos (hwrong.1 hw)]
  · refine hended hm1 (fun hw => ?_) (resumeTenant_of_paused hs)
    rcases hw with ⟨_, hne⟩ | ⟨hh, _⟩ | ⟨hh, _⟩
    · exact hne hs
    · rw [hs] at hh; cases hh
    · rw [hs] at hh; cases hh
  · exact hended hm1 hw (resumeTenant_of_pending hs hr hp)
  · intro hsk
    exact hended hm1 hw ((resumeTenant_of_posted hs (.inl hp)).trans ((if_pos hsk).trans (skipHalted_eq k _)))
  · intro hsk
    exact ⟨_, retried_retryHalted k _, hended hm1 hw ((resumeTenant_of_posted hs (.inl hp)).trans (if_neg (by simp [hsk])))⟩
  · have hretry : skip = false := by
      cases hsk : skip
      · rfl
      · exact absurd (.inr (.inr ⟨hs, hr, hsk⟩)) hw
    have hpost := (resumeTenant_of_posted (k := k) (skip := skip) hs (.inr hr)).trans
      ((if_neg (by simp [hretry])).trans (retryHalted_of_postError hr hd))
    exact ⟨fun hi => hended hm1 hw (hpost.trans (if_pos hi)), fun hi => hended hm1 hw (hpost.trans (if_neg (by simp [hi])))⟩

/-- Settles O59. -/
theorem setServiceAndNote : Obligations.SetServiceAndNote := by
  unfold Obligations.SetServiceAndNote
  refine ⟨fun s c h => ?_, fun s c h => execNote_of_executing h⟩
  intro r bad
  refine ⟨fun hn => execSetService_of_badTarget h (tenantOfNumber_of_bad hn), fun k hk => ?_⟩
  intro v
  have hexec := execSetService_of_target h (tenantOfNumber_of_val hk)
  have hbad : serviceBad (byteAt c.data 9) (byteAt c.data 10) (halfAt c.data 12) = true ↔ bad := serviceBad_iff
  refine ⟨fun hb => ?_, fun hb hs => ?_, fun hb hs => ?_⟩
  · exact hexec.trans (congrArg Host.Outcome.next (if_pos (hbad.2 hb)))
  · exact hexec.trans (congrArg Host.Outcome.next ((if_neg fun h => hb (hbad.1 h)).trans (if_pos hs)))
  · exact hexec.trans (congrArg Host.Outcome.next ((if_neg fun h => hb (hbad.1 h)).trans (if_neg hs)))

end Sys2Proof.Machine
end

section
set_option Elab.async false
/-!
# QUERY (section 10.7)
-/

namespace Sys2Proof.Machine

section
variable {s : State} {c : CtlRecord} {k : TenantId}

/-- A QUERY carried out: its checks in their order, then the report write (R174, R175). -/
theorem execQuery_eq (h : Executing s c .query) : execQuery s = .next (
    if 7 < byteAt c.data 8 then controlEnded s c .invalid .badTarget 0 0 0 0
    else if 2 ^ 40 ≤ longAt c.data 16 then
      controlEnded s c .invalid .badField 0 0 (targetVersion s (byteAt c.data 8)) 0
    else if longAt c.data 16 % 64 ≠ 0 then
      controlEnded s c .invalid .align 0 0 (targetVersion s (byteAt c.data 8)) 0
    else { s with control := { s.control with
      query := some { addr := BitVec.ofNat 40 (longAt c.data 16), data := encodeReport (reportOf s c),
                      mapVersion := (reportOf s c).mapVersion } } }) := by
  simp only [execQuery, currentControl_of_executing h]
  rfl

theorem targetVersion_of_none {n : Nat} (h : n = 0) : targetVersion s n = 0 := by
  rw [targetVersion, tenantOfNumber_of_bad (.inl h)]

theorem targetVersion_of_tenant {n : Nat} (h : k.val + 1 = n) : targetVersion s n = (getTenant s k).mapVersion := by
  rw [targetVersion, tenantOfNumber_of_val h]

theorem reportOf_of_none (h : byteAt c.data 8 = 0) : reportOf s c = controlReport s c := by
  rw [reportOf, tenantOfNumber_of_bad (.inl h)]

theorem reportOf_of_tenant (h : k.val + 1 = byteAt c.data 8) : reportOf s c = tenantReport (getTenant s k) := by
  rw [reportOf, tenantOfNumber_of_val h]

theorem optCount_eq {α : Type} (o : Option α) : optCount o = if o.isSome then 1 else 0 := by cases o <;> rfl

/-- The answer of the report write ends the QUERY with the report's map version (R175). -/
theorem endQuery_of_current {q : QueryWrite} {st : Status} {rs : Reason} (he : s.engine ≠ .resetting)
    (hq : s.control.query = some q) (hc : s.control.current = some c) : endQuery s st rs =
    controlEnded { s with control := { s.control with query := none } } c st rs 0 0 q.mapVersion 0 := by
  simp only [endQuery, hq, hc]
  exact if_neg he

end

/-- Settles O60: the refusals by the check that fails, the report by its target, and the two answers alike. -/
theorem queryRecord : Obligations.QueryRecord := by
  unfold Obligations.QueryRecord
  refine ⟨fun s c h => ?_, fun s c q he hq hc => ?_⟩
  · intro n a
    have hexec := execQuery_eq h
    have htarget : ∀ {k : TenantId}, k.val + 1 = n → ¬7 < n := fun {k} hk => by omega
    have hwrite : ¬7 < n → a < 2 ^ 40 → a % 64 = 0 → exec .query s = .next { s with control := { s.control with
        query := some { addr := BitVec.ofNat 40 a, data := encodeReport (reportOf s c),
                        mapVersion := (reportOf s c).mapVersion } } } := fun hn ha hal =>
      hexec.trans (congrArg Host.Outcome.next ((if_neg hn).trans ((if_neg (Nat.not_le.2 ha)).trans (if_neg (not_not.2 hal)))))
    refine ⟨fun hn => hexec.trans (congrArg Host.Outcome.next (if_pos hn)), fun v hv => ?_, fun ha hal hn => ?_,
      fun ha hal k hk => ?_⟩
    · have hversion : targetVersion s n = v := by
        rcases hv with ⟨hn, rfl⟩ | ⟨k, hk, rfl⟩
        · exact targetVersion_of_none hn
        · exact targetVersion_of_tenant hk
      have hn : ¬7 < n := by
        rcases hv with ⟨hn, _⟩ | ⟨k, hk, _⟩
        · omega
        · exact htarget hk
      rw [← hversion]
      exact ⟨fun ha => hexec.trans (congrArg Host.Outcome.next ((if_neg hn).trans (if_pos ha))),
        fun ha hal => hexec.trans (congrArg Host.Outcome.next
          ((if_neg hn).trans ((if_neg (Nat.not_le.2 ha)).trans (if_pos hal))))⟩
    · intro report write
      have hreport : controlReport s c = report := by
        rw [controlReport, optCount_eq]
        rfl
      rw [hwrite (by omega) ha hal, reportOf_of_none hn, hreport]
    · intro t report write
      have hreport : tenantReport (getTenant s k) = report := by
        unfold tenantReport windowCursor
        rcases hw : (getTenant s k).window with _ | w <;> simp only [report, t, hw] <;> rfl
      rw [hwrite (htarget hk) ha hal, reportOf_of_tenant hk, hreport]
  · intro s0
    exact ⟨congrArg Host.Outcome.next (endQuery_of_current he hq hc), congrArg Host.Outcome.next (endQuery_of_current he hq hc)⟩

end Sys2Proof.Machine
end
